-- ==== Sys2Proof/Word.lean ====
section
/-! DEFINITION. The word types of OPA-AVGDISP: register words, bytes, samples and the running sum. -/

namespace Sys2Proof

/-- An 8-bit byte (R10): a cell bitmap, a command byte. -/
abbrev Byte := BitVec 8

/-- A 32-bit register word of the host window (R35). -/
abbrev Word := BitVec 32

/-- A sample slot. `SAMPLE_W` is at most 16 (R9), so 16 bits hold a sample of any implementation; the bits from
`SAMPLE_W` up are 0 (`AvgInv`). -/
abbrev Sample := BitVec 16

/-- The running sum. `SAMPLE_W + 5` bits (R22) are at most 21; the bits above are 0 (`AvgInv`). -/
abbrev SumWord := BitVec 21

end Sys2Proof
end

