-- ==== Sys2Proof/Config.lean ====
section
/-! DEFINITION. What an implementation fixes: the constants of R8, the parameters of R9, and the free values. -/

namespace Sys2Proof

namespace Config

/-- `N` (R8): the window length, the number of ring-buffer slots. -/
def window : Nat := 32

/-- `CELLS` (R8): the number of display cells. -/
def cellCount : Nat := 4

/-- `LEVEL_MAX` (R8): the brightness clamp. -/
def levelMax : Nat := 7

/-- `VMIN` (R8): the least renderable value. -/
def vMin : Int := -999

/-- `VMAX` (R8): the greatest renderable value. -/
def vMax : Int := 9999

/-- `OVER_WORD` (R8): the overflow glyph, one byte per cell. -/
def overWord : Word := 0x50791C3F#32

/-- `CMD_AUTO` (R8). -/
def cmdAuto : Byte := 0x40#8

/-- `CMD_FIXED` (R8). -/
def cmdFixed : Byte := 0x44#8

/-- `CMD_ADDR` (R8): the start address command of cell 0. -/
def cmdAddr : Byte := 0xC0#8

/-- `CMD_DISP` (R8): display on at brightness 0. -/
def cmdDisp : Byte := 0x88#8

/-- The size of the host register window in bytes (R60). -/
def windowBytes : Nat := 32

/-- One less than `DELAY_US` (R9, D32): left open by the spec, a free constant. -/
opaque delayUsPred : Nat

/-- `DELAY_US` (R9): a positive number of microseconds, otherwise open. A lower bound on one WAIT (R252). -/
def delayUs : Nat := delayUsPred + 1

/-- The window's place in units of 32 bytes (R9, D4): left open by the spec, a free constant. -/
opaque baseBlock : Nat

/-- `BASE` (R9): the window's address, 32-byte aligned, otherwise open. -/
def base : Nat := 32 * baseBlock

/-- The level the `n`-th free READ returns (R16, R196, U2): a free value. It answers a READ for which the schedule
holds no ACK line (R95); nothing in the model fixes it. -/
opaque freeAck : Nat → Bool

end Config

/-- The parameters of R9 that reach the state. The host fixes `step : State → …`, so the arguments that R9 speaks of
travel in `State.params`; no step writes them (log entry 1). -/
structure Params where
  /-- `SAMPLE_W - 1`, so that 1 ≤ `SAMPLE_W` ≤ 16 holds by construction (D3). -/
  sampleWm1 : Fin 16
  /-- `DIGIT_SEG[0..9]` (R132, D23). -/
  digitSeg : Vector Byte 10
  /-- `MINUS_SEG` (R133, D24). -/
  minusSeg : Byte
  /-- `BRIGHT_RST` (R9, D11): the brightness after reset. -/
  brightRst : BitVec 3
  deriving DecidableEq, Repr

/-- `SAMPLE_W` (R9): the sample width, 1 to 16. -/
def Params.sampleW (p : Params) : Nat := p.sampleWm1.val + 1

/-- The parameters `State.reset` carries: the spec's default tables and reset brightness (R9, D11, D23, D24) and, where the spec leaves
`SAMPLE_W` open, the widest width it allows. DESIGN CHOICE (log entry 1, unsafe): statements are made for every
`Params`, never for these. -/
def Params.standard : Params where
  sampleWm1 := 15
  digitSeg := #v[0x3F#8, 0x06#8, 0x5B#8, 0x4F#8, 0x66#8, 0x6D#8, 0x7D#8, 0x07#8, 0x7F#8, 0x6F#8]
  minusSeg := 0x40#8
  brightRst := 7#3

end Sys2Proof
end

