-- ==== Sys2Proof/Syntax.lean ====
section
/-! DEFINITION. The operations at the block's ports: one constructor of `Instr` per row of spec/opcode_table.json, and
the words in which they arrive (R80). -/

namespace Sys2Proof

/-- The direction of a host access (R81, bit W). -/
inductive Dir where
  | read
  | write
  deriving DecidableEq, Repr

/-- A host access: the triple (descriptor, n, data) of R81. `data` is the write data; a read ignores it. -/
structure Access where
  desc : BitVec 9
  n : Nat
  data : Word
  deriving DecidableEq, Repr

/-- A display command with its fields (R85, R86). `lenm1` is the CMD field LENM1, the data length less 1. -/
inductive Command where
  | clear
  | renderDigits
  | renderNumber (lz : Bool)
  | display (pos lenm1 : BitVec 2)
  | writeFixed (pos : BitVec 2)
  deriving DecidableEq, Repr

/-- The block's operations, one constructor per opcode-table row (R82, R83, R85, R90). -/
inductive Instr where
  -- format BUS
  | rdAvg
  | wrAvg (v : Word)
  | rdStatus
  | wrStatus (v : Word)
  | rdBright
  | wrBright (v : Word)
  | rdCmd
  | wrCmd (w : Word)
  | rdData
  | wrData (v : Word)
  | rdValue
  | wrValue (v : Word)
  | rdSegq
  | wrSegq (v : Word)
  | rdSum
  | wrSum (v : Word)
  -- format SMP
  | sample (d : Sample)
  -- format CMD: the data word of a WR.CMD access
  | clear
  | renderDigits
  | renderNumber (lz : Bool)
  | display (pos lenm1 : BitVec 2)
  | writeFixed (pos : BitVec 2)
  -- format TMCMD: the command bytes the DISP sequencer sends
  | tmAuto
  | tmFixed
  | tmAddr (pos : BitVec 2)
  | tmDisp (level : BitVec 3)
  deriving DecidableEq, Repr

/-- A display command as the instruction of its opcode-table row. -/
def Command.toInstr : Command → Instr
  | .clear => .clear
  | .renderDigits => .renderDigits
  | .renderNumber lz => .renderNumber lz
  | .display pos lenm1 => .display pos lenm1
  | .writeFixed pos => .writeFixed pos

/-- A word at one of the ports (R80): what the decoder reads. `smp` carries the raw value of a sample event, of any
size, so that one wider than `SAMPLE_W` can be refused (R225). -/
inductive PortWord where
  | bus (a : Access)
  | smp (d : Nat)
  | cmd (w : Word)
  | tm (b : Byte)
  deriving DecidableEq, Repr

end Sys2Proof
end

