-- ==== Sys2Proof/WellFormed.lean ====
section
/-! DEFINITION. Well-formed operations: the two conditions the formats put on fields. -/

namespace Sys2Proof

/-- A display command is legal when its cells fit the display: POS + LENM1 + 1 ≤ 4 for DISPLAY (R85, R87 (b)). -/
def Command.legal : Command → Bool
  | .clear => true
  | .renderDigits => true
  | .renderNumber _ => true
  | .display pos lenm1 => decide (pos.toNat + lenm1.toNat + 1 ≤ 4)
  | .writeFixed _ => true

/-- An operation is well-formed when a SAMPLE value fits `SAMPLE_W` bits (R83) and DISPLAY's cells fit (R85). -/
def Instr.wf (p : Params) : Instr → Bool
  | .rdAvg => true
  | .wrAvg _ => true
  | .rdStatus => true
  | .wrStatus _ => true
  | .rdBright => true
  | .wrBright _ => true
  | .rdCmd => true
  | .wrCmd _ => true
  | .rdData => true
  | .wrData _ => true
  | .rdValue => true
  | .wrValue _ => true
  | .rdSegq => true
  | .wrSegq _ => true
  | .rdSum => true
  | .wrSum _ => true
  | .sample d => decide (d.toNat < 2 ^ p.sampleW)
  | .clear => true
  | .renderDigits => true
  | .renderNumber _ => true
  | .display pos lenm1 => (Command.display pos lenm1).legal
  | .writeFixed _ => true
  | .tmAuto => true
  | .tmFixed => true
  | .tmAddr _ => true
  | .tmDisp _ => true

end Sys2Proof
end

