-- ==== Sys2Proof/Decode.lean ====
section
/-! DEFINITION. The decoder of the four port formats (R80-R93), total and rejecting by name, and the encoder. -/

namespace Sys2Proof

/-- Why a port word names no operation. -/
inductive Reject where
  /-- ERR_BUS_SIZE (R61, R221): the access size is not 4. -/
  | busSize (off : Byte) (n : Nat) (dir : Dir)
  /-- ERR_BUS_ALIGN (R61, R221): the offset is not a multiple of 4. -/
  | busAlign (off : Byte) (n : Nat) (dir : Dir)
  /-- The offset lies outside the 32-byte window (R68): the access is not the block's. -/
  | outsideWindow (off : Byte)
  /-- The sample value needs more than `SAMPLE_W` bits (R225). -/
  | sampleTooWide (d : Nat)
  /-- ERR_CMD_ILLEGAL (R87, R221). -/
  | illegalCommand (w : Word)
  /-- The byte is none of the command bytes of R90. -/
  | notCommandByte (b : Byte)
  deriving DecidableEq, Repr

/-- What the decoder answers. -/
inductive Decoded where
  | instr (i : Instr)
  | rejected (r : Reject)
  deriving DecidableEq, Repr

/-- The byte offset OFF of a descriptor, bits 7:0 (R81). -/
def Access.off (a : Access) : Byte := a.desc.extractLsb' 0 8

/-- The direction of a descriptor, bit 8 (R81). -/
def Access.dir (a : Access) : Dir := if a.desc.getLsbD 8 then .write else .read

/-- The check of R61, after the test that the offset is in the block's window (R68); `none` when it passes. Where both
the size and the alignment are wrong the label is the size's; the response is the same (R221, log entry 12). -/
def Access.rejected (a : Access) : Option Reject :=
  if Config.windowBytes ≤ a.off.toNat then some (.outsideWindow a.off)
  else if a.n ≠ 4 then some (.busSize a.off a.n a.dir)
  else if a.off.toNat % 4 ≠ 0 then some (.busAlign a.off a.n a.dir)
  else none

/-- The BUS opcode map (R82): the row of a descriptor. -/
def decodeDescriptor (desc : BitVec 9) (data : Word) : Option Instr :=
  if desc = 0x000#9 then some .rdAvg
  else if desc = 0x100#9 then some (.wrAvg data)
  else if desc = 0x004#9 then some .rdStatus
  else if desc = 0x104#9 then some (.wrStatus data)
  else if desc = 0x008#9 then some .rdBright
  else if desc = 0x108#9 then some (.wrBright data)
  else if desc = 0x00C#9 then some .rdCmd
  else if desc = 0x10C#9 then some (.wrCmd data)
  else if desc = 0x010#9 then some .rdData
  else if desc = 0x110#9 then some (.wrData data)
  else if desc = 0x014#9 then some .rdValue
  else if desc = 0x114#9 then some (.wrValue data)
  else if desc = 0x018#9 then some .rdSegq
  else if desc = 0x118#9 then some (.wrSegq data)
  else if desc = 0x01C#9 then some .rdSum
  else if desc = 0x11C#9 then some (.wrSum data)
  else none

/-- Decode a host access: the access check first (R227 (c)), then the row (R82). A descriptor that passes the check
always has a row. -/
def decodeBus (a : Access) : Decoded :=
  match a.rejected with
  | some r => .rejected r
  | none =>
    match decodeDescriptor a.desc a.data with
    | some i => .instr i
    | none => .rejected (.outsideWindow a.off)

/-- Decode a sample event (R83): every value below `2 ^ SAMPLE_W` is legal, and a wider one is refused, never
truncated (R225). -/
def decodeSmp (p : Params) (d : Nat) : Decoded :=
  if d < 2 ^ p.sampleW then .instr (.sample (BitVec.ofNat 16 d)) else .rejected (.sampleTooWide d)

/-- The CMD decoder of R88, `none` for ILLEGAL. -/
def decodeCmd (w : Word) : Option Command :=
  if w = 0x00000001#32 then some .clear
  else if w = 0x00000002#32 then some .renderDigits
  else if w &&& 0xFFFFFFEF#32 = 0x00000003#32 then some (.renderNumber (w.getLsbD 4))
  else if w &&& 0xFFFFCCFF#32 = 0x00000004#32 then
    let c := Command.display (w.extractLsb' 8 2) (w.extractLsb' 12 2)
    if c.legal then some c else none
  else if w &&& 0xFFFFFCFF#32 = 0x00000005#32 then some (.writeFixed (w.extractLsb' 8 2))
  else none

/-- The TMCMD map (R90): the command byte `b` stands for. -/
def decodeTm (b : Byte) : Option Instr :=
  if b = 0x40#8 then some .tmAuto
  else if b = 0x44#8 then some .tmFixed
  else if b &&& 0xFC#8 = 0xC0#8 then some (.tmAddr (b.extractLsb' 0 2))
  else if b &&& 0xF8#8 = 0x88#8 then some (.tmDisp (b.extractLsb' 0 3))
  else none

/-- Decode a word at any port. -/
def decode (p : Params) : PortWord → Decoded
  | .bus a => decodeBus a
  | .smp d => decodeSmp p d
  | .cmd w =>
    match decodeCmd w with
    | some c => .instr c.toInstr
    | none => .rejected (.illegalCommand w)
  | .tm b =>
    match decodeTm b with
    | some i => .instr i
    | none => .rejected (.notCommandByte b)

/-- The CMD word of a command, field by field (R84): 18 reserved bits, LENM1, 2 reserved, POS, 3 reserved, LZ, OP. -/
def encodeCmd : Command → Word
  | .clear => 0#18 ++ 0#2 ++ 0#2 ++ 0#2 ++ 0#3 ++ 0#1 ++ 1#4
  | .renderDigits => 0#18 ++ 0#2 ++ 0#2 ++ 0#2 ++ 0#3 ++ 0#1 ++ 2#4
  | .renderNumber lz => 0#18 ++ 0#2 ++ 0#2 ++ 0#2 ++ 0#3 ++ BitVec.ofBool lz ++ 3#4
  | .display pos lenm1 => 0#18 ++ lenm1 ++ 0#2 ++ pos ++ 0#3 ++ 0#1 ++ 4#4
  | .writeFixed pos => 0#18 ++ 0#2 ++ 0#2 ++ pos ++ 0#3 ++ 0#1 ++ 5#4

/-- A host read of the register at `off` (R81): W = 0, n = 4. -/
def readAccess (off : Byte) : Access := ⟨0#1 ++ off, 4, 0#32⟩

/-- A host write of `v` to the register at `off` (R81): W = 1, n = 4. -/
def writeAccess (off : Byte) (v : Word) : Access := ⟨1#1 ++ off, 4, v⟩

/-- The port word of an operation (R81-R90). -/
def encode : Instr → PortWord
  | .rdAvg => .bus (readAccess 0x00#8)
  | .wrAvg v => .bus (writeAccess 0x00#8 v)
  | .rdStatus => .bus (readAccess 0x04#8)
  | .wrStatus v => .bus (writeAccess 0x04#8 v)
  | .rdBright => .bus (readAccess 0x08#8)
  | .wrBright v => .bus (writeAccess 0x08#8 v)
  | .rdCmd => .bus (readAccess 0x0C#8)
  | .wrCmd w => .bus (writeAccess 0x0C#8 w)
  | .rdData => .bus (readAccess 0x10#8)
  | .wrData v => .bus (writeAccess 0x10#8 v)
  | .rdValue => .bus (readAccess 0x14#8)
  | .wrValue v => .bus (writeAccess 0x14#8 v)
  | .rdSegq => .bus (readAccess 0x18#8)
  | .wrSegq v => .bus (writeAccess 0x18#8 v)
  | .rdSum => .bus (readAccess 0x1C#8)
  | .wrSum v => .bus (writeAccess 0x1C#8 v)
  | .sample d => .smp d.toNat
  | .clear => .cmd (encodeCmd .clear)
  | .renderDigits => .cmd (encodeCmd .renderDigits)
  | .renderNumber lz => .cmd (encodeCmd (.renderNumber lz))
  | .display pos lenm1 => .cmd (encodeCmd (.display pos lenm1))
  | .writeFixed pos => .cmd (encodeCmd (.writeFixed pos))
  | .tmAuto => .tm 0x40#8
  | .tmFixed => .tm 0x44#8
  | .tmAddr pos => .tm (0x30#6 ++ pos)
  | .tmDisp level => .tm (0x11#5 ++ level)

/-- The port a table word of `nbits` bits arrives at: the table gives BUS rows 9 bits (two bytes), CMD rows 32 and
TMCMD rows 8. A BUS descriptor comes with n = 4, as every BUS row requires, and data 0. The SMP row has mask 0 and so no
bits of its own: a word of no bits, and a one-byte word that is no command byte, is read as a sample value (log entry 9).
Only the host's probe needs this choice: at the ports a word comes with its format. -/
def tablePortWord (nbits w : Nat) : Option PortWord :=
  if nbits = 16 then (if w < 2 ^ 9 then some (.bus ⟨BitVec.ofNat 9 w, 4, 0#32⟩) else none)
  else if nbits = 32 then (if w < 2 ^ 32 then some (.cmd (BitVec.ofNat 32 w)) else none)
  else if nbits = 8 then
    if 2 ^ 8 ≤ w then none
    else if (decodeTm (BitVec.ofNat 8 w)).isSome then some (.tm (BitVec.ofNat 8 w)) else some (.smp w)
  else if nbits = 0 then some (.smp w)
  else none

/-- The instruction the decoder reads from a table word. -/
def decodeTableWord (nbits w : Nat) : Option Instr :=
  match tablePortWord nbits w with
  | none => none
  | some pw =>
    match decode Params.standard pw with
    | .instr i => some i
    | .rejected _ => none

end Sys2Proof
end

