-- ==== Sys2Proof/Machine/State.lean ====
section
/-! DEFINITION. The state of the block (R20-R48) as plain data, its reset value, and the reasons a step stops. -/

namespace Sys2Proof.Machine

/-- The data pin's mode (R34): driven low, driven high, or released (the spec's IN). -/
inductive DioMode where
  | out0
  | out1
  | released
  deriving DecidableEq, Repr

/-- A wire item of `PROG` (R32, R92). -/
inductive Item where
  | start
  | byte (b : Byte)
  | stop
  deriving DecidableEq, Repr

/-- An entry of `TRACE` (R14, R40). Levels are `true` for 1 and `false` for 0; a READ is recorded with the level it
returned, and `idle` is the marker of a reset. -/
inductive TraceEntry where
  | clk (l : Bool)
  | dio (l : Bool)
  | dioRel
  | wait
  | read (r : Bool)
  | idle
  deriving DecidableEq, Repr

/-- The snapshot of an accepted command (R31). -/
structure Snap where
  mode : Byte
  pos : BitVec 2
  cells : List Byte
  level : BitVec 3
  deriving DecidableEq, Repr

/-- The host port's answer to the last host access: none yet, read data, a write done, or the bus error response with
the offset, size and direction (R222). -/
inductive Response where
  | none
  | data (w : Word)
  | done
  | busError (off : Byte) (n : Nat) (dir : Dir)
  deriving DecidableEq, Repr

/-- One action of an agent (R16, R94): a sample event, a host access, one sequencer step, sequencer steps until `PROG`
is empty (`SEQ*`), and the receiver's answer to a READ. -/
inductive Event where
  | sample (d : Nat)
  | host (a : Access)
  | seq
  | seqAll
  | ack (r : Bool)
  deriving DecidableEq, Repr

/-- What can happen between two polls of a waiting host (R95): an action of another agent, or reset. -/
inductive Meanwhile where
  | sample (d : Nat)
  | seq
  | seqAll
  | ack (r : Bool)
  | reset (during : List Event)
  deriving DecidableEq, Repr

/-- How the other agents act while the host runs the loop of WAITIDLE (R95, U16): in each listed round, what happens
before that round's poll; and after the listed rounds either a fair scheduler, which runs the sequencer until `PROG` is
empty (R262), or an unfair one, which never lets it move. -/
structure Wait where
  rounds : List (List Meanwhile)
  fair : Bool
  deriving DecidableEq, Repr

/-- An entry of the schedule: an agent's action; the reset input asserted together with the actions that arrive while it
is asserted (R240, R241); or the poll that ends a round of WAITIDLE, with the rounds that follow if it reads BUSY = 1
(R95, log entry 14). -/
inductive Input where
  | event (e : Event)
  | reset (during : List Event)
  | poll (w : Wait)
  deriving DecidableEq, Repr

/-- The machine's state. The fields up to `trace` are the spec's, in the order of R48; the rest are the model's own. -/
structure State where
  /-- `BUF[0..31]` (R21). -/
  buf : Vector Sample 32
  /-- `SUMR` (R22). -/
  sumr : SumWord
  /-- `CUR` (R23). -/
  cur : BitVec 5
  /-- `FILL` (R24). -/
  fill : BitVec 6
  /-- `AVGR` (R25). -/
  avgr : Sample
  /-- `LEVEL` (R27). -/
  level : BitVec 3
  /-- `DATA` (R28). -/
  data : Word
  /-- `VALUE` (R29). -/
  value : Word
  /-- `SEGCODE` (R30). -/
  segcode : Word
  /-- `SNAP` (R31). -/
  snap : Snap
  /-- `PROG` (R32): the wire items still to perform. -/
  prog : List Item
  /-- `K` (R32): the index of the next event of the head item. -/
  k : Nat
  /-- `ACKOK` (R32). -/
  ackok : Bool
  /-- `NACK` (R33). -/
  nack : Bool
  /-- `CMDERR` (R33). -/
  cmderr : Bool
  /-- `CLK_LVL` (R34). -/
  clkLvl : Bool
  /-- `DIO_MODE` (R34). -/
  dioMode : DioMode
  /-- `TRACE` (R40), oldest entry first. -/
  trace : List TraceEntry
  /-- The model's own: the implementation parameters (R9), which no step writes. -/
  params : Params
  /-- The model's own: the agents' actions still to come, the next one first (R16, R94). -/
  inputs : List Input
  /-- The model's own: the receiver's answers that ACK lines have supplied and no READ has used yet (R95). -/
  acks : List Bool
  /-- The model's own: the number of free draws made so far, the argument of `Config.freeAck`. -/
  draws : Nat
  /-- The model's own: the host port's answer to the last access (R13). -/
  resp : Response
  /-- The model's own: the item before the head of `PROG` was a START, so that a BYTE at the head is the first of its
  transaction, a command byte (R89). -/
  firstByte : Bool
  deriving DecidableEq, Repr

/-- Why the machine stops with a fault. -/
inductive Fault where
  /-- Raised by the sequencer step when `K` is not the index of an event of the head item (R190). No state reached from
  reset has such a `K` (`WireInv`). Safe: the machine stops where the spec says nothing. -/
  | sequencerIndex
  deriving DecidableEq, Repr

/-- Why the machine refuses. -/
inductive Refusal where
  /-- Raised by `exec` alone, for an operation that has no meaning yet; none is left. Safe. -/
  | notModelled (mnemonic : String)
  /-- Raised by SAMPLE and by the sample port for a value of more than `SAMPLE_W` bits: R225 has the model refuse it.
  Safe. -/
  | sampleTooWide
  /-- Raised by a host access outside `BASE .. BASE+0x1F`: R68 leaves it to the platform. Safe. -/
  | outsideWindow
  /-- Raised by a TM operation when its byte is not due on the wire: only the sequencer sends command bytes, in the
  places R163 gives them (R91, R92). Safe. -/
  | commandByteNotDue
  deriving DecidableEq, Repr

/-- The value of `SNAP` after reset. R48 calls it unobservable and leaves it arbitrary: DESIGN CHOICE (log entry 5,
unsafe in form, though nothing reads it before an acceptance writes it). -/
def resetSnap : Snap := ⟨Config.cmdAuto, 0#2, [0#8, 0#8, 0#8, 0#8], 7#3⟩

/-- The machine right after reset (R48, R240), with the parameters `p`, an empty schedule, and the one `IDLE` marker
of the reset in `TRACE` (R40, R240 (c)). -/
def State.resetWith (p : Params) : State where
  buf := Vector.replicate 32 0#16
  sumr := 0#21
  cur := 0#5
  fill := 0#6
  avgr := 0#16
  level := p.brightRst
  data := 0#32
  value := 0#32
  segcode := 0#32
  snap := resetSnap
  prog := []
  k := 0
  ackok := false
  nack := false
  cmderr := false
  clkLvl := true
  dioMode := .out1
  trace := [.idle]
  params := p
  inputs := []
  acks := []
  draws := 0
  resp := .none
  firstByte := false

/-- The machine right after reset, with the parameters of `Params.standard` (log entry 1). -/
def State.reset : State := State.resetWith Params.standard

end Sys2Proof.Machine
end

