-- ==== Sys2Proof/Machine/Operands.lean ====
section
/-! DEFINITION. Operand forms: byte lanes, segment bitmaps, number rendering, and what a display command latches
(R10, R131-R138, R163). -/

namespace Sys2Proof.Machine

/-- Byte lane `i` of a word, bits 8i+7:8i (R10). -/
def lane (w : Word) (i : Nat) : Byte := w.extractLsb' (8 * i) 8

/-- `digitToSegments` (R131), for any integer code. -/
def digitToSegments (p : Params) (d : Int) : Byte :=
  if h : 0 ≤ d ∧ d ≤ 9 then p.digitSeg[d.toNat]'(by omega)
  else if d = -1 then p.minusSeg
  else 0#8

/-- The four cells of a word, lane i in cell i (R65). -/
def lanes (w : Word) : List Byte := [lane w 0, lane w 1, lane w 2, lane w 3]

/-- The overflow glyph (R135): `OVER_WORD`, lane i in cell i. -/
def overflowCells : List Byte := lanes Config.overWord

/-- The digit loop of R136 from cell `p` leftwards: writes the digits of `a` into `c` and answers the cells and the
cell the loop stopped before, `none` when it ran past cell 0. -/
def digitLoop (q : Params) (neg lz : Bool) : (p a : Nat) → (c : List Byte) → List Byte × Option Nat
  | 0, a, c => (c.set 0 (digitToSegments q (a % 10 : Nat)), none)
  | p + 1, a, c =>
    let c' := c.set (p + 1) (digitToSegments q (a % 10 : Nat))
    let a' := a / 10
    if a' = 0 ∧ (lz = false ∨ (neg = true ∧ p = 0)) then (c', some p) else digitLoop q neg lz p a' c'

/-- `renderCells` (R136): the cells of RENDER_NUMBER, cell 0 leftmost. -/
def renderCells (q : Params) (v : Int) (lz : Bool) : List Byte :=
  if v < Config.vMin ∨ Config.vMax < v then overflowCells
  else
    let neg := decide (v < 0)
    match digitLoop q neg lz 3 v.natAbs [0#8, 0#8, 0#8, 0#8] with
    | (c, some p) => if neg then c.set p (digitToSegments q (-1)) else c
    | (c, none) => c

/-- The addressing-mode byte of a command (R163). -/
def commandMode : Command → Byte
  | .writeFixed _ => Config.cmdFixed
  | .clear | .renderDigits | .renderNumber _ | .display _ _ => Config.cmdAuto

/-- The start cell of a command (R163). -/
def commandPos : Command → BitVec 2
  | .display pos _ | .writeFixed pos => pos
  | .clear | .renderDigits | .renderNumber _ => 0#2

/-- The data bytes of a command, read from the state at acceptance (R163, R166-R170). -/
def commandCells (s : State) : Command → List Byte
  | .clear => [0#8, 0#8, 0#8, 0#8]
  | .renderDigits => lanes s.data
  | .renderNumber lz => renderCells s.params s.value.toInt lz
  | .display pos lenm1 => (List.range (lenm1.toNat + 1)).map fun i => lane s.data (pos.toNat + i)
  | .writeFixed pos => [lane s.data pos.toNat]

/-- Everything a command latches at acceptance (R163). -/
def latch (c : Command) (s : State) : Snap := ⟨commandMode c, commandPos c, commandCells s c, s.level⟩

/-- The address byte `0xC0 + pos` (R179). -/
def addrByte (pos : BitVec 2) : Byte := Config.cmdAddr + pos.setWidth 8

/-- The brightness byte `0x88 | level` (R180). -/
def dispByte (level : BitVec 3) : Byte := Config.cmdDisp ||| level.setWidth 8

/-- The wire program of a latched command: its three transactions (R163). -/
def wireProgram (sn : Snap) : List Item :=
  .start :: .byte sn.mode :: .stop
    :: .start :: .byte (addrByte sn.pos) :: (sn.cells.map Item.byte
      ++ [.stop, .start, .byte (dispByte sn.level), .stop])

/-- The offset in the host window of an absolute address (R60, R68): `none` where the address is not the block's. -/
def windowOffset (addr : Nat) : Option Byte :=
  if Config.base ≤ addr ∧ addr < Config.base + Config.windowBytes then some (BitVec.ofNat 8 (addr - Config.base))
  else none

end Sys2Proof.Machine
end

