-- ==== Sys2Proof/Machine/Flags.lean ====
section
/-! DEFINITION. The flags BUSY, NACK and CMDERR, the STATUS word, and the named causes of errors (R33, R37, R221). -/

namespace Sys2Proof.Machine

/-- `BUSY` (R33): derived, true exactly when `PROG` is not empty. -/
def State.busy (s : State) : Bool := !s.prog.isEmpty

/-- The STATUS word (R37, R62), from bit 31 down: 11 zeros, CUR, 2 zeros, FILL, 5 zeros, CMDERR, NACK, BUSY. -/
def State.statusWord (s : State) : Word :=
  0#11 ++ s.cur ++ 0#2 ++ s.fill ++ 0#5 ++ BitVec.ofBool s.cmderr ++ BitVec.ofBool s.nack ++ BitVec.ofBool s.busy

/-- A rejected CMD write sets CMDERR and nothing else (R162, R164). -/
def rejectCommand (s : State) : State := { s with cmderr := true }

/-- `AckEval` (R196): the ack is a READ of 0; a READ of 1 sets NACK. -/
def ackEval (r : Bool) (s : State) : State := { s with ackok := !r, nack := s.nack || r }

/-- The cause names of R221. The block stores none of them. -/
inductive Cause where
  | errBusSize
  | errBusAlign
  | errCmdBusy
  | errCmdIllegal
  | errNack
  deriving DecidableEq, Repr

/-- The cause that rejects a CMD write, if any: the BUSY test before the decode (R227 (c)). -/
def commandCause (c : Option Command) (s : State) : Option Cause :=
  if s.busy then some .errCmdBusy
  else match c with
    | none => some .errCmdIllegal
    | some c => if c.legal then none else some .errCmdIllegal

/-- The cause of a bus error, if the decoder rejected the access for one (R221). -/
def busCause : Reject → Option Cause
  | .busSize _ _ _ => some .errBusSize
  | .busAlign _ _ _ => some .errBusAlign
  | .outsideWindow _ | .sampleTooWide _ | .illegalCommand _ | .notCommandByte _ => none

/-- The cause a READ of level `r` records (R221). -/
def ackCause (r : Bool) : Option Cause := if r then some .errNack else none

end Sys2Proof.Machine
end

