-- ==== Sys2Proof/Machine/Wire.lean ====
section
/-! DEFINITION. The DISP sequencer: the event lists of the wire items, the effect of an event, and the sequencer step
(R190-R199). -/

namespace Sys2Proof.Machine

/-- A wire event as an item lists it (R14). -/
inductive WireEvent where
  | clk (l : Bool)
  | dio (l : Bool)
  | dioRel
  | wait
  | read
  deriving DecidableEq, Repr

/-- The six events of bit `i` of a byte (R193): the bit is set while CLK is low and sampled as CLK rises. -/
def bitSlot (b : Byte) (i : Nat) : List WireEvent :=
  [.clk false, .wait, .dio (b.getLsbD i), .wait, .clk true, .wait]

/-- The data phase of BYTE(b) (R193): eight bit slots, the least significant bit first. -/
def dataPhase (b : Byte) : List WireEvent :=
  bitSlot b 0 ++ bitSlot b 1 ++ bitSlot b 2 ++ bitSlot b 3 ++ bitSlot b 4 ++ bitSlot b 5 ++ bitSlot b 6 ++ bitSlot b 7

/-- The acknowledgment phase of BYTE (R194): without an ack the block drives the line low and releases it again. -/
def ackPhase : (ackok : Bool) → List WireEvent
  | true => [.clk false, .dioRel, .wait, .clk true, .wait, .read, .wait, .clk false, .wait]
  | false =>
    [.clk false, .dioRel, .wait, .clk true, .wait, .read, .dio false, .wait, .clk false, .wait, .dioRel]

/-- The event list of an item (R192-R194, R197). -/
def events : Item → Bool → List WireEvent
  | .start, _ => [.dio false, .wait, .clk false, .wait]
  | .byte b, ackok => dataPhase b ++ ackPhase ackok
  | .stop, _ => [.clk false, .wait, .dio false, .wait, .clk true, .wait, .dio true, .wait]

/-- The level of the next READ: the oldest unused ACK answer, or a free draw when there is none (R95, R196, U2). -/
def readLevel (s : State) : Bool :=
  match s.acks with
  | r :: _ => r
  | [] => Config.freeAck s.draws

/-- Use up the answer `readLevel` gave. -/
def takeAck (s : State) : State :=
  match s.acks with
  | _ :: rest => { s with acks := rest }
  | [] => { s with draws := s.draws + 1 }

/-- Append one entry to TRACE (R195). -/
def record (e : TraceEntry) (s : State) : State := { s with trace := s.trace ++ [e] }

/-- The effect of one event on the line state and TRACE (R195); READ also judges the ack (R190, R196). -/
def perform (ev : WireEvent) (s : State) : State :=
  match ev with
  | .clk l => record (.clk l) { s with clkLvl := l }
  | .dio l => record (.dio l) { s with dioMode := if l then .out1 else .out0 }
  | .dioRel => record .dioRel { s with dioMode := .released }
  | .wait => record .wait s
  | .read => record (.read (readLevel s)) (ackEval (readLevel s) (takeAck s))

/-- Advance `K`, and drop the head item `it` when its last event is done (R190). With the last item gone, SNAP keeps the
ended command's values: R31 has nothing but acceptance write it, and U11 leaves it any value while idle, where nothing
reads it. DESIGN CHOICE (log entry 5, unsafe in form). -/
def advance (it : Item) (rest : List Item) (s : State) : State :=
  if s.k + 1 = (events it s.ackok).length then
    { s with prog := rest, k := 0, ackok := false, firstByte := decide (it = .start) }
  else { s with k := s.k + 1 }

/-- The sequencer step (R190): one event of the head item. With `PROG` empty it is not enabled and the turn passes. -/
def seqStep (s : State) : Host.Outcome State Fault Refusal :=
  match s.prog with
  | [] => .next s
  | it :: rest =>
    match (events it s.ackok)[s.k]? with
    | none => .fault .sequencerIndex
    | some ev => .next (advance it rest (perform ev s))

end Sys2Proof.Machine
end

