-- ==== Sys2Proof/Machine/Ops.lean ====
section
/-! DEFINITION. The shared operations: host port responses, the bus error, the sample window, command acceptance,
sending a command byte, the receiver's answer, and reset. -/

namespace Sys2Proof.Machine

/-- Answer a host read with `w` (R62): a read changes nothing else. -/
def respond (w : Word) (s : State) : State := { s with resp := .data w }

/-- Answer a host write: it completed normally (R63). -/
def complete (s : State) : State := { s with resp := .done }

/-- `raise BusError(off, n, dir)` (R13, R222): the access ends with the error response and changes no state of the
block. The block has no trap entry and no trap return (R228, R229), so this is all an exception does here. -/
def raiseBusError (off : Byte) (n : Nat) (dir : Dir) (s : State) : State := { s with resp := .busError off n dir }

/-- The body of SAMPLE (R102), in exact integers, stored at the end. -/
def insertSample (d : Sample) (s : State) : State :=
  let old : Int := (s.buf[s.cur.toNat]'s.cur.isLt).toNat
  let sum : Int := s.sumr.toNat - old + d.toNat
  let f : Nat := min (s.fill.toNat + 1) Config.window
  { s with
    buf := s.buf.set s.cur.toNat d s.cur.isLt
    sumr := BitVec.ofInt 21 sum
    cur := s.cur + 1#5
    fill := BitVec.ofNat 6 f
    avgr := BitVec.ofInt 16 (sum / f) }

/-- SAMPLE on a value of `SAMPLE_W` bits; a wider value is refused, never truncated (R225). -/
def sampleEvent (d : Sample) (s : State) : Host.Outcome State Fault Refusal :=
  if d.toNat < 2 ^ s.params.sampleW then .next (insertSample d s) else .refused .sampleTooWide

/-- The brightness a written word stores: `min(u32(v), 7)` (R160). -/
def clampLevel (v : Word) : BitVec 3 := BitVec.ofNat 3 (min v.toNat Config.levelMax)

/-- `Accept(c)` (R163): latch the operands, build the wire program, clear NACK and CMDERR. -/
def accept (c : Command) (s : State) : State :=
  { s with
    snap := latch c s
    prog := wireProgram (latch c s)
    k := 0
    ackok := false
    nack := false
    cmderr := false
    firstByte := false }

/-- `DisplayCommand` (R161) on a decoded CMD word, `none` for ILLEGAL: rejected while BUSY (R162) or when illegal
(R164), else accepted. The CMD write itself completes normally in every case. -/
def displayCommand (c : Option Command) (s : State) : State :=
  complete (match commandCause c s, c with
    | none, some c => accept c s
    | _, _ => rejectCommand s)

/-- Send the command byte `b`: one sequencer step, when `b` is the first byte of the transaction under way (R89, R90). -/
def sendCommandByte (b : Byte) (s : State) : Host.Outcome State Fault Refusal :=
  if s.firstByte ∧ s.prog.head? = some (.byte b) then seqStep s else .refused .commandByteNotDue

/-- The receiver answers a coming READ (R95). -/
def queueAck (r : Bool) (s : State) : State := { s with acks := s.acks ++ [r] }

/-- The reset step (R240) on the block: every state at its R48 value and one `IDLE` marker. The agents' actions to
come, the receiver's unused answers, the last response and the parameters are outside the block and stay. -/
def resetBlock (s : State) : State :=
  { State.resetWith s.params with
    trace := s.trace ++ [.idle]
    inputs := s.inputs
    acks := s.acks
    draws := s.draws
    resp := s.resp }

end Sys2Proof.Machine
end

