-- ==== Sys2Proof/Machine/Averager.lean ====
section
/-! DEFINITION. The AVG unit's operations (R100-R113): SAMPLE, and the accesses of AVG, STATUS and SUM. -/

namespace Sys2Proof.Machine

/-- SAMPLE (R102). -/
def execSample (d : Sample) (s : State) : Host.Outcome State Fault Refusal := sampleEvent d s

/-- RD.AVG (R107). -/
def execRdAvg (s : State) : Host.Outcome State Fault Refusal := .next (respond (s.avgr.setWidth 32) s)

/-- WR.AVG: ignored (R63). -/
def execWrAvg (_v : Word) (s : State) : Host.Outcome State Fault Refusal := .next (complete s)

/-- RD.STATUS (R109). -/
def execRdStatus (s : State) : Host.Outcome State Fault Refusal := .next (respond s.statusWord s)

/-- WR.STATUS: ignored (R63). -/
def execWrStatus (_v : Word) (s : State) : Host.Outcome State Fault Refusal := .next (complete s)

/-- RD.SUM (R108). -/
def execRdSum (s : State) : Host.Outcome State Fault Refusal := .next (respond (s.sumr.setWidth 32) s)

/-- WR.SUM: ignored (R63). -/
def execWrSum (_v : Word) (s : State) : Host.Outcome State Fault Refusal := .next (complete s)

end Sys2Proof.Machine
end

