-- ==== Sys2Proof/Machine/CommandByte.lean ====
section
/-! DEFINITION. The command bytes of R90 (R177-R180): each is the sequencer's sending of that byte, one wire event a
step (R190). -/

namespace Sys2Proof.Machine

/-- TM.AUTO (R177): 0x40. -/
def execTmAuto (s : State) : Host.Outcome State Fault Refusal := sendCommandByte Config.cmdAuto s

/-- TM.FIXED (R178): 0x44. -/
def execTmFixed (s : State) : Host.Outcome State Fault Refusal := sendCommandByte Config.cmdFixed s

/-- TM.ADDR (R179): 0xC0 + pos. -/
def execTmAddr (pos : BitVec 2) (s : State) : Host.Outcome State Fault Refusal := sendCommandByte (addrByte pos) s

/-- TM.DISP (R180): 0x88 | level. -/
def execTmDisp (level : BitVec 3) (s : State) : Host.Outcome State Fault Refusal := sendCommandByte (dispByte level) s

end Sys2Proof.Machine
end

