-- ==== Sys2Proof/Machine/Display.lean ====
section
/-! DEFINITION. The DISP unit's host accesses and display commands (R139, R140, R160-R176). -/

namespace Sys2Proof.Machine

/-- RD.SEGQ (R139). -/
def execRdSegq (s : State) : Host.Outcome State Fault Refusal :=
  .next (respond ((digitToSegments s.params s.segcode.toInt).setWidth 32) s)

/-- WR.SEGQ (R140). -/
def execWrSegq (v : Word) (s : State) : Host.Outcome State Fault Refusal := .next (complete { s with segcode := v })

/-- RD.BRIGHT (R171). -/
def execRdBright (s : State) : Host.Outcome State Fault Refusal := .next (respond (s.level.setWidth 32) s)

/-- WR.BRIGHT (R160). -/
def execWrBright (v : Word) (s : State) : Host.Outcome State Fault Refusal :=
  .next (complete { s with level := clampLevel v })

/-- RD.DATA (R173). -/
def execRdData (s : State) : Host.Outcome State Fault Refusal := .next (respond s.data s)

/-- WR.DATA (R172). -/
def execWrData (v : Word) (s : State) : Host.Outcome State Fault Refusal := .next (complete { s with data := v })

/-- RD.VALUE (R175). -/
def execRdValue (s : State) : Host.Outcome State Fault Refusal := .next (respond s.value s)

/-- WR.VALUE (R174). -/
def execWrValue (v : Word) (s : State) : Host.Outcome State Fault Refusal := .next (complete { s with value := v })

/-- RD.CMD: CMD is write-only and reads 0 (R176). -/
def execRdCmd (s : State) : Host.Outcome State Fault Refusal := .next (respond 0#32 s)

/-- WR.CMD (R161): the display command of the written word. -/
def execWrCmd (w : Word) (s : State) : Host.Outcome State Fault Refusal := .next (displayCommand (decodeCmd w) s)

/-- CLEAR (R166), as the CMD write that carries it. -/
def execClear (s : State) : Host.Outcome State Fault Refusal := .next (displayCommand (some .clear) s)

/-- RENDER_DIGITS (R167). -/
def execRenderDigits (s : State) : Host.Outcome State Fault Refusal := .next (displayCommand (some .renderDigits) s)

/-- RENDER_NUMBER (R168). -/
def execRenderNumber (lz : Bool) (s : State) : Host.Outcome State Fault Refusal :=
  .next (displayCommand (some (.renderNumber lz)) s)

/-- DISPLAY (R169); with POS + LEN > 4 the word is illegal (R87 (b), R164). -/
def execDisplay (pos lenm1 : BitVec 2) (s : State) : Host.Outcome State Fault Refusal :=
  .next (displayCommand (some (.display pos lenm1)) s)

/-- WRITE_FIXED (R170). -/
def execWriteFixed (pos : BitVec 2) (s : State) : Host.Outcome State Fault Refusal :=
  .next (displayCommand (some (.writeFixed pos)) s)

end Sys2Proof.Machine
end

