-- ==== Sys2Proof/Machine/Dispatch.lean ====
section
/-! DEFINITION. The meaning of each operation, one arm per constructor of `Instr`. -/

namespace Sys2Proof.Machine

def exec (i : Instr) (s : State) : Host.Outcome State Fault Refusal :=
  match i with
  | .rdAvg => Sys2Proof.Machine.execRdAvg s
  | .wrAvg v => Sys2Proof.Machine.execWrAvg v s
  | .rdStatus => Sys2Proof.Machine.execRdStatus s
  | .wrStatus v => Sys2Proof.Machine.execWrStatus v s
  | .rdBright => Sys2Proof.Machine.execRdBright s
  | .wrBright v => Sys2Proof.Machine.execWrBright v s
  | .rdCmd => Sys2Proof.Machine.execRdCmd s
  | .wrCmd w => Sys2Proof.Machine.execWrCmd w s
  | .rdData => Sys2Proof.Machine.execRdData s
  | .wrData v => Sys2Proof.Machine.execWrData v s
  | .rdValue => Sys2Proof.Machine.execRdValue s
  | .wrValue v => Sys2Proof.Machine.execWrValue v s
  | .rdSegq => Sys2Proof.Machine.execRdSegq s
  | .wrSegq v => Sys2Proof.Machine.execWrSegq v s
  | .rdSum => Sys2Proof.Machine.execRdSum s
  | .wrSum v => Sys2Proof.Machine.execWrSum v s
  | .sample d => Sys2Proof.Machine.execSample d s
  | .clear => Sys2Proof.Machine.execClear s
  | .renderDigits => Sys2Proof.Machine.execRenderDigits s
  | .renderNumber lz => Sys2Proof.Machine.execRenderNumber lz s
  | .display pos lenm1 => Sys2Proof.Machine.execDisplay pos lenm1 s
  | .writeFixed pos => Sys2Proof.Machine.execWriteFixed pos s
  | .tmAuto => Sys2Proof.Machine.execTmAuto s
  | .tmFixed => Sys2Proof.Machine.execTmFixed s
  | .tmAddr pos => Sys2Proof.Machine.execTmAddr pos s
  | .tmDisp level => Sys2Proof.Machine.execTmDisp level s

end Sys2Proof.Machine
end

