-- ==== Sys2Proof/Machine/Fetch.lean ====
section
/-! DEFINITION. Which agent moves next and with what port word, what a rejected word does, and what happens while
reset is asserted (R16, R70, R81, R190, R222, R241). -/

namespace Sys2Proof.Machine

/-- The next atomic step of the block: an agent presents a port word, the sequencer sends a START, a STOP or a data
byte, the receiver answers, reset is asserted, or no agent moves. Each carries the state with its schedule entry used. -/
inductive Turn where
  | word (pw : PortWord) (s : State)
  | item (s : State)
  | receiver (r : Bool) (s : State)
  | reset (during : List Event) (s : State)
  | idle (s : State)
  deriving DecidableEq, Repr

/-- The sequencer's turn (R190): the first BYTE of a transaction is a command byte (R89) and is decoded as one. -/
def sequencerTurn (s : State) : Turn :=
  match s.prog with
  | [] => .idle s
  | .byte b :: _ => if s.firstByte then .word (.tm b) s else .item s
  | .start :: _ | .stop :: _ => .item s

/-- The schedule entry of what happens between two polls. -/
def Meanwhile.toInput : Meanwhile → Input
  | .sample d => .event (.sample d)
  | .seq => .event .seq
  | .seqAll => .event .seqAll
  | .ack r => .event (.ack r)
  | .reset during => .reset during

/-- The next round of WAITIDLE's loop (R95): what happens before its poll, then the poll. -/
def Wait.nextRound (w : Wait) : List Input :=
  match w.rounds with
  | acts :: rest => acts.map Meanwhile.toInput ++ [.poll { w with rounds := rest }]
  | [] => if w.fair then [.event .seqAll, .poll w] else [.poll w]

/-- The next turn: the head of the schedule. When the schedule is empty the sequencer runs on its own (R251, R262);
`SEQ*` stays at the head of the schedule until `PROG` is empty (R94). A poll is a read of STATUS, and another round follows
it when bit 0 of the word read is 1 (R95). -/
def fetch (s : State) : Turn :=
  match s.inputs with
  | [] => sequencerTurn s
  | .event (.sample d) :: rest => .word (.smp d) { s with inputs := rest }
  | .event (.host a) :: rest => .word (.bus a) { s with inputs := rest }
  | .event .seq :: rest => sequencerTurn { s with inputs := rest }
  | .event .seqAll :: rest => if s.prog = [] then .idle { s with inputs := rest } else sequencerTurn s
  | .event (.ack r) :: rest => .receiver r { s with inputs := rest }
  | .reset during :: rest => .reset during { s with inputs := rest }
  | .poll w :: rest =>
    .word (.bus (readAccess 0x04#8))
      { s with inputs := if s.statusWord.getLsbD 0 then w.nextRound ++ rest else rest }

/-- What a port word that names no operation does: the bus error response (R222), a refusal (R68, R225), a rejected
CMD write (R164), or, for a byte at the sequencer that is no command byte, its sending all the same (R190). The last
two never arrive here: a CMD word comes inside a WR.CMD access, and every transaction opens with a command byte
(R91). -/
def onReject (r : Reject) (s : State) : Host.Outcome State Fault Refusal :=
  match r with
  | .busSize off n dir => .next (raiseBusError off n dir s)
  | .busAlign off n dir => .next (raiseBusError off n dir s)
  | .outsideWindow _ => .refused .outsideWindow
  | .sampleTooWide _ => .refused .sampleTooWide
  | .illegalCommand _ => .next (complete (rejectCommand s))
  | .notCommandByte _ => seqStep s

/-- The events that arrive while reset is asserted (R241), on the state that the reset step left: a sample is
lost, and one wider than `SAMPLE_W` is refused at the port as ever (R225), the sequencer does not step, host writes have no effect, and host reads return the reset values. -/
def underReset : List Event → State → Host.Outcome State Fault Refusal
  | [], s => .next s
  | .sample d :: es, s =>
    match decodeSmp s.params d with
    | .instr _ => underReset es s
    | .rejected _ => .refused .sampleTooWide
  | .seq :: es, s => underReset es s
  | .seqAll :: es, s => underReset es s
  | .ack r :: es, s => underReset es (queueAck r s)
  | .host a :: es, s =>
    match decodeBus a with
    | .instr i =>
      match a.dir with
      | .write => underReset es (complete s)
      | .read =>
        match exec i s with
        | .next s' => underReset es s'
        | .fault f => .fault f
        | .refused r => .refused r
    | .rejected r =>
      match onReject r s with
      | .next s' => underReset es s'
      | .fault f => .fault f
      | .refused r => .refused r

/-- Reset asserted (R240, R241): the reset step, then the events that arrive while it is asserted. -/
def resetTurn (during : List Event) (s : State) : Host.Outcome State Fault Refusal := underReset during (resetBlock s)

/-- Put a port word where the next step fetches it: a bus access or a sample at the head of the schedule, a CMD word as
the write of it to CMD, and a command byte as the first byte of the transaction under way with the sequencer to move. -/
def placeWord (pw : PortWord) (s : State) : State :=
  match pw with
  | .bus a => { s with inputs := .event (.host a) :: s.inputs }
  | .smp d => { s with inputs := .event (.sample d) :: s.inputs }
  | .cmd w => { s with inputs := .event (.host (writeAccess 0x0C#8 w)) :: s.inputs }
  | .tm b =>
    { s with
      prog := .byte b :: s.prog
      k := 0
      ackok := false
      firstByte := true
      inputs := .event .seq :: s.inputs }

end Sys2Proof.Machine
end

