-- ==== Sys2Proof/Machine/Step.lean ====
section
/-! DEFINITION. One atomic step of the block (R16, R70). -/

namespace Sys2Proof.Machine

/-- One step: the next turn of the schedule. -/
def step (s : State) : Host.Outcome State Fault Refusal :=
  match fetch s with
  | .word pw s' =>
    match decode s'.params pw with
    | .instr i => exec i s'
    | .rejected r => onReject r s'
  | .item s' => seqStep s'
  | .receiver r s' => .next (queueAck r s')
  | .reset during s' => resetTurn during s'
  | .idle s' => .next s'

/-- `s` with the table word `w` stored where `step` fetches its next instruction; `s` itself where the table has no
word of that width (log entry 9). -/
def State.withFetchWord (s : State) (nbits w : Nat) : State :=
  match tablePortWord nbits w with
  | some pw => placeWord pw s
  | none => s

end Sys2Proof.Machine
end

