-- ==== Sys2Proof/Machine/Script.lean ====
section
/-! DEFINITION. Host scripts (R94) and their pseudo-instructions (R95) as schedules of the machine. -/

namespace Sys2Proof.Machine

/-- The register names of R94. -/
inductive Reg where
  | avg
  | status
  | bright
  | cmd
  | data
  | value
  | segq
  | sum
  deriving DecidableEq, Repr

/-- The offset of a register (R35). -/
def Reg.off : Reg → Byte
  | .avg => 0x00#8
  | .status => 0x04#8
  | .bright => 0x08#8
  | .cmd => 0x0C#8
  | .data => 0x10#8
  | .value => 0x14#8
  | .segq => 0x18#8
  | .sum => 0x1C#8

/-- A script line (R94). A read's result is found in `State.resp`; the name it is bound to is the host's. -/
inductive Line where
  | smp (d : Nat)
  | rd (r : Reg)
  | wr (r : Reg) (v : Int)
  | seq
  | seqAll
  | ack (r : Bool)
  deriving DecidableEq, Repr

/-- The schedule entry of a line; a negative value denotes its two's-complement word (R94). DESIGN CHOICE (log entry 24,
unsafe): an integer that no 32-bit word denotes, above 2^32 - 1 or below -2^31, is taken modulo 2^32. -/
def Line.toInput : Line → Input
  | .smp d => .event (.sample d)
  | .rd r => .event (.host (readAccess r.off))
  | .wr r v => .event (.host (writeAccess r.off (BitVec.ofInt 32 v)))
  | .seq => .event .seq
  | .seqAll => .event .seqAll
  | .ack r => .event (.ack r)

/-- The pseudo-instructions of R95. -/
inductive Pseudo where
  | cmdClear
  | cmdRdig
  | cmdRnum
  | cmdRnumLz
  | cmdDisp (p l : Nat)
  | cmdWfix (p : Nat)
  | setBright (l : Int)
  | waitIdle
  | showValue (v : Int)
  | showValueLz (v : Int)
  deriving DecidableEq, Repr

/-- The schedule of script lines. -/
def lineInputs (lines : List Line) : List Input := lines.map Line.toInput

/-- The expansion of a pseudo-instruction (R95), `none` where the assembler refuses its operands. `w` says what the other
agents do while the host waits; it is no part of the script's text. R95 has the assembler refuse other operands of
`CMD DISP`; DESIGN CHOICE (log entry 25, safe): it refuses `CMD WFIX p` with p > 3 as well. -/
def Pseudo.expand (w : Wait) : Pseudo → Option (List Input)
  | .cmdClear => some (lineInputs [.wr .cmd 0x00000001])
  | .cmdRdig => some (lineInputs [.wr .cmd 0x00000002])
  | .cmdRnum => some (lineInputs [.wr .cmd 0x00000003])
  | .cmdRnumLz => some (lineInputs [.wr .cmd 0x00000013])
  | .cmdDisp p l =>
    if 1 ≤ l ∧ p + l ≤ 4 then some (lineInputs [.wr .cmd (0x4 ||| (p <<< 8) ||| ((l - 1) <<< 12) : Nat)]) else none
  | .cmdWfix p => if p ≤ 3 then some (lineInputs [.wr .cmd (0x5 ||| (p <<< 8) : Nat)]) else none
  | .setBright l => some (lineInputs [.wr .bright l])
  | .waitIdle => some w.nextRound
  | .showValue v => some (lineInputs [.wr .value v, .wr .cmd 0x00000003] ++ w.nextRound)
  | .showValueLz v => some (lineInputs [.wr .value v, .wr .cmd 0x00000013] ++ w.nextRound)

/-- An item of a script (R94, R95): a line, or a pseudo-instruction with what happens while it waits. -/
inductive ScriptItem where
  | line (l : Line)
  | pseudo (p : Pseudo) (w : Wait)
  deriving DecidableEq, Repr

/-- The schedule of a script, `none` where the assembler refuses an item: one refused item refuses the script (log entry
25). -/
def assemble : List ScriptItem → Option (List Input)
  | [] => some []
  | .line l :: rest => (assemble rest).map (l.toInput :: ·)
  | .pseudo p w :: rest =>
    match p.expand w, assemble rest with
    | some is, some more => some (is ++ more)
    | _, _ => none

end Sys2Proof.Machine
end

