-- ==== Sys2Proof/Machine/Receiver.lean ====
section
/-! DEFINITION. What a receiver sees on the wire (R201): the bytes of the transactions in a trace, read from the levels
at the CLK rising edges between the START and STOP edges. -/

namespace Sys2Proof.Machine

/-- A receiver's view so far: the lines, whether a transaction is open, the levels sampled since the last whole group
of nine, the bytes of the open transaction, and the finished transactions. -/
structure Rx where
  clk : Bool
  dio : DioMode
  inside : Bool
  bits : List Bool
  bytes : List Byte
  done : List (List Byte)
  deriving DecidableEq, Repr

/-- A byte from its levels on the wire, the least significant bit first (R65, R193). -/
def byteOfBits (bits : List Bool) : Byte := BitVec.ofNat 8 (bits.foldr (fun b n => b.toNat + 2 * n) 0)

/-- A CLK rising edge inside a transaction (R201): sample DIO; the ninth level of a group is the ack slot and
completes the byte. A released line counts as 0 here: it is sampled only in the ack slot, whose level is dropped. -/
def Rx.sampleLevel (r : Rx) : Rx :=
  let bits := r.bits ++ [decide (r.dio = .out1)]
  if bits.length = 9 then { r with bits := [], bytes := r.bytes ++ [byteOfBits (bits.take 8)] } else { r with bits := bits }

/-- One trace entry. A START is a driven fall of DIO while CLK is high, a STOP a driven rise. The forced low of a missed
ack starts from a released line and is neither (R200 (c), U12, log entry 15). The level at STOP's own CLK rise is left
over when the transaction closes and is dropped with it (log entry 15).

DESIGN CHOICE (log entry 23, unsafe): at the `IDLE` marker of a reset the view drops the open transaction with its levels
and bytes, and goes on with idle lines. R240, R259 and U7 leave open what the device sees of a transaction that reset cuts
short; P5 of 95_test_vectors.md says only that the marker is no STOP. -/
def Rx.next (r : Rx) : TraceEntry → Rx
  | .clk l => { (if l = true ∧ r.clk = false ∧ r.inside = true then r.sampleLevel else r) with clk := l }
  | .dio false =>
    if r.clk = true ∧ r.dio = .out1 then { r with dio := .out0, inside := true, bits := [], bytes := [] }
    else { r with dio := .out0 }
  | .dio true =>
    if r.clk = true ∧ r.dio = .out0 ∧ r.inside = true then
      { r with dio := .out1, inside := false, bits := [], bytes := [], done := r.done ++ [r.bytes] }
    else { r with dio := .out1 }
  | .dioRel => { r with dio := .released }
  | .wait => r
  | .read _ => r
  | .idle => { r with clk := true, dio := .out1, inside := false, bits := [], bytes := [] }

/-- A receiver before the first edge, both lines idle (R34) and no transaction open. DESIGN CHOICE (log entry 23): what the
device holds before is open (U7, U8). -/
def Rx.start : Rx := ⟨true, .out1, false, [], [], []⟩

/-- The byte transactions in a trace, one list of bytes per START … STOP (R201). -/
def receivedTransactions (trace : List TraceEntry) : List (List Byte) := (trace.foldl Rx.next Rx.start).done

/-- The number of CLK rising edges in a trace that starts with CLK at `clk` (R198), counted over CLK events. DESIGN CHOICE
(log entry 23, unsafe): a CLK that a reset forces from 0 to 1 is recorded only as `IDLE` and is not counted, and CLK
counts as high after it (R240 (c)). -/
def risingEdges : (clk : Bool) → List TraceEntry → Nat
  | _, [] => 0
  | clk, .clk l :: es => (if l = true ∧ clk = false then 1 else 0) + risingEdges l es
  | clk, .dio _ :: es => risingEdges clk es
  | clk, .dioRel :: es => risingEdges clk es
  | clk, .wait :: es => risingEdges clk es
  | clk, .read _ :: es => risingEdges clk es
  | _, .idle :: es => risingEdges true es

/-- The number of WAIT entries in a trace. -/
def waitCount (trace : List TraceEntry) : Nat := trace.countP (· = .wait)

/-- The least time in microseconds that the WAITs of a trace take (R252, R261): a lower bound, never an upper one. -/
def minDurationUs (trace : List TraceEntry) : Nat := waitCount trace * Config.delayUs

/-- The number of READ entries in a trace. -/
def readCount (trace : List TraceEntry) : Nat := trace.countP fun e => e = .read true ∨ e = .read false

/-- The number of READs of a trace that returned 1: the bytes that were not acknowledged (R198). -/
def missedAcks (trace : List TraceEntry) : Nat := trace.countP (· = .read true)

/-- The number of BYTE items in a wire program. -/
def byteCount (prog : List Item) : Nat :=
  prog.countP fun it => match it with | .byte _ => true | .start => false | .stop => false

end Sys2Proof.Machine
end

