-- ==== Sys2Proof/Safety.lean ====
section
/-! DEFINITION. What holds between any two steps (R26, R31, R34, R91, R192, R197), and the runs that claims speak of. -/

namespace Sys2Proof.Machine

/-- The sum over all 32 slots (R22). -/
def bufSum (s : State) : Nat := (s.buf.toList.map BitVec.toNat).sum

/-- The invariants of the AVG unit: samples of `SAMPLE_W` bits (R21), FILL at most 32 (R24), and R26 (i) to (iii). -/
abbrev AvgInv (s : State) : Prop :=
  (∀ j : Fin 32, s.buf[j].toNat < 2 ^ s.params.sampleW)
    ∧ s.sumr.toNat = bufSum s
    ∧ s.fill.toNat ≤ 32
    ∧ (s.fill.toNat < 32 → s.cur.toNat = s.fill.toNat)
    ∧ (s.fill.toNat < 32 → ∀ j : Fin 32, s.fill.toNat ≤ j.val → s.buf[j] = 0#16)
    ∧ s.avgr.toNat = (if s.fill.toNat = 0 then 0 else s.sumr.toNat / s.fill.toNat)

/-- Which item may follow which: a transaction is START, a command byte, further bytes, STOP (R89, R91, R163). -/
def Item.mayPrecede : Item → Item → Bool
  | .start, .byte b => (decodeTm b).isSome
  | .byte _, .byte _ => true
  | .byte _, .stop => true
  | .stop, .start => true
  | .start, .start => false
  | .start, .stop => false
  | .byte _, .start => false
  | .stop, .byte _ => false
  | .stop, .stop => false

/-- The shape of `PROG`: items in a lawful order, the last a STOP. -/
def progShape : List Item → Bool
  | [] => true
  | [it] => decide (it = .stop)
  | a :: b :: rest => a.mayPrecede b && progShape (b :: rest)

/-- The clock level after events that begin with it at `l` (R195). -/
def clkAfter (l : Bool) : List WireEvent → Bool
  | [] => l
  | .clk l' :: es => clkAfter l' es
  | .dio _ :: es => clkAfter l es
  | .dioRel :: es => clkAfter l es
  | .wait :: es => clkAfter l es
  | .read :: es => clkAfter l es

/-- The data pin's mode after events that begin with it at `m` (R195). -/
def dioAfter (m : DioMode) : List WireEvent → DioMode
  | [] => m
  | .clk _ :: es => dioAfter m es
  | .dio l :: es => dioAfter (if l then .out1 else .out0) es
  | .dioRel :: es => dioAfter .released es
  | .wait :: es => dioAfter m es
  | .read :: es => dioAfter m es

/-- The lines are where the first `K` events of the item leave them, given how the item finds them: START with both
lines idle (R192), BYTE and STOP with CLK low (R192, R194, R197). -/
def linesAt (it : Item) (s : State) : Bool :=
  let past := (events it s.ackok).take s.k
  match it with
  | .start => decide (s.clkLvl = clkAfter true past ∧ s.dioMode = dioAfter .out1 past)
  | .byte _ | .stop =>
    decide (s.clkLvl = clkAfter false past
      ∧ s.dioMode ∈ [dioAfter .out0 past, dioAfter .out1 past, dioAfter .released past])

/-- The first byte of the transaction under way is a command byte (R91). -/
def firstByteLawful (s : State) : Bool :=
  !s.firstByte || (match s.prog with
    | .byte b :: _ => (decodeTm b).isSome
    | _ => false)

/-- The state of the sequencer at its place in `PROG`: idle lines and cleared registers when `PROG` is empty (R34, R48,
R190, R197), else an index of the head item and the lines that go with it. `ACKOK` is 0 up to the READ (R32). -/
def seqPlace (s : State) : Bool :=
  match s.prog with
  | [] => decide (s.k = 0 ∧ s.ackok = false ∧ s.clkLvl = true ∧ s.dioMode = .out1)
  | it :: _ => decide (s.k < (events it s.ackok).length ∧ (s.k < 54 → s.ackok = false)) && linesAt it s

/-- The invariant of the DISP sequencer and the two lines. -/
abbrev WireInv (s : State) : Prop := progShape s.prog = true ∧ firstByteLawful s = true ∧ seqPlace s = true

/-- The shape of SNAP (R31): a mode byte of R163 and one to four cells. -/
abbrev SnapInv (s : State) : Prop :=
  (s.snap.mode = Config.cmdAuto ∨ s.snap.mode = Config.cmdFixed) ∧ 1 ≤ s.snap.cells.length ∧ s.snap.cells.length ≤ 4

/-- The wire program R163 lists: three transactions, of the mode byte, of the address byte `addr` and the cells, and of
the brightness byte `disp`. -/
def threeTransactions (mode addr : Byte) (cells : List Byte) (disp : Byte) : List Item :=
  [.start, .byte mode, .stop] ++ (.start :: .byte addr :: cells.map Item.byte) ++ [.stop, .start, .byte disp, .stop]

/-- The state R163 gives an accepted command with this mode byte, start cell and data bytes; the CMD write completes. -/
def acceptedWith (mode : Byte) (pos : Nat) (cells : List Byte) (s : State) : State :=
  { s with
    snap := ⟨mode, BitVec.ofNat 2 pos, cells, s.level⟩
    prog := threeTransactions mode (BitVec.ofNat 8 (0xC0 + pos)) cells (BitVec.ofNat 8 (0x88 + s.level.toNat))
    k := 0
    ackok := false
    nack := false
    cmderr := false
    firstByte := false
    resp := .done }

/-- The state R162 and R164 give a rejected CMD write, which completes. -/
def commandRejected (s : State) : State := { s with cmderr := true, resp := .done }

/-- A run of samples (R110): each one SAMPLE step, from the schedule. -/
def sampleInputs (ds : List Nat) : List Input := ds.map fun d => .event (.sample d)

/-- The last `n` elements of a list. -/
def lastOf (n : Nat) (ds : List Nat) : List Nat := ds.drop (ds.length - n)

/-- The mean of the most recent `min k 32` of `k` samples, truncated, and 0 of none (R110). -/
def windowMean (ds : List Nat) : Nat :=
  if ds = [] then 0 else (lastOf Config.window ds).sum / min ds.length Config.window

/-- The sequencer has the turn in `s`, and `t` is `s` with the schedule entry that gives it the turn used: with nothing
scheduled, by a SEQ entry, or by a SEQ* entry, which stays while PROG is not empty (R16, R94, R190). -/
abbrev SequencerMoves (s t : State) : Prop :=
  (s.inputs = [] ∧ t = s)
    ∨ (∃ rest, s.inputs = .event .seq :: rest ∧ t = { s with inputs := rest })
    ∨ (∃ rest, s.inputs = .event .seqAll :: rest ∧ s.prog ≠ [] ∧ t = s)

/-- A host write of `w` to CMD is next (R161). -/
abbrev cmdWriteNext (w : Word) (s : State) : Prop := ∃ rest, s.inputs = .event (.host ⟨0x10C#9, 4, w⟩) :: rest

/-- The reset input is asserted next (R240). -/
abbrev resetNext (s : State) : Prop := ∃ during rest, s.inputs = .reset during :: rest

/-- What happens between two polls holds a sample or a reset. -/
def Meanwhile.writesAverager : Meanwhile → Bool
  | .sample _ | .reset _ => true
  | .seq | .seqAll | .ack _ => false

/-- A schedule entry is, or can bring about, a sample or a reset. -/
def Input.writesAverager : Input → Bool
  | .event (.sample _) | .reset _ => true
  | .event (.host _) | .event .seq | .event .seqAll | .event (.ack _) => false
  | .poll w => w.rounds.any fun acts => acts.any Meanwhile.writesAverager

/-- A schedule entry is an action of another agent than the host and reset. -/
def Input.sparesHostPort : Input → Bool
  | .event (.sample _) | .event .seq | .event .seqAll | .event (.ack _) => true
  | .event (.host _) | .reset _ | .poll _ => false

/-- The block's ports take these events: every host access is in the window (R68), and every sample fits `SAMPLE_W` bits
(R225). -/
abbrev portsAccept (p : Params) (es : List Event) : Prop :=
  (∀ a, Event.host a ∈ es → a.desc.toNat % 256 < Config.windowBytes) ∧ ∀ d, Event.sample d ∈ es → d < 2 ^ p.sampleW

/-- The block accepts what happens between two polls: a sample fits `SAMPLE_W` bits (R225), and so do those that arrive
while reset is asserted, where the host keeps to the window (R68). -/
def Meanwhile.accepted (p : Params) : Meanwhile → Prop
  | .sample d => d < 2 ^ p.sampleW
  | .reset during => portsAccept p during
  | .seq | .seqAll | .ack _ => True

/-- The receiver's answers among events, in order (R95). -/
def ackAnswers (es : List Event) : List Bool :=
  es.filterMap fun e => match e with
    | .ack r => some r
    | .sample _ | .host _ | .seq | .seqAll => none

/-- The operations that are sequencer steps: the command bytes (R90). -/
def onWire : Instr → Bool
  | .tmAuto | .tmFixed | .tmAddr _ | .tmDisp _ => true
  | .rdAvg | .wrAvg _ | .rdStatus | .wrStatus _ | .rdBright | .wrBright _ | .rdCmd | .wrCmd _ => false
  | .rdData | .wrData _ | .rdValue | .wrValue _ | .rdSegq | .wrSegq _ | .rdSum | .wrSum _ => false
  | .sample _ | .clear | .renderDigits | .renderNumber _ | .display _ _ | .writeFixed _ => false

end Sys2Proof.Machine
end

