-- ==== Sys2Proof/Certificates/Slice0/Obligations.lean ====
section
/-! DEFINITION. The statements about the model, for the provers. A state in a statement is any state; where one needs an
invariant of the model it is a hypothesis, and that every step keeps it is a statement of its own. The port's answer
`resp`, the schedule `inputs` and `firstByte` are the model's own fields (log entries 2, 3, 6). -/

open Sys2Proof Sys2Proof.Machine

/-! ## Host accesses -/

/-- R62: each host read answers its register and changes nothing else, as an operation and as the step that a host
access with n = 4 makes. -/
def Obligations.HostReadsAnswerTheRegister : Prop :=
  ∀ (s : State) (rest : List Input) (data : Word) (off : Byte) (i : Instr) (v : Word),
    (off, i, v) ∈
      [ (0x00#8, Instr.rdAvg, s.avgr.setWidth 32),
        (0x04#8, Instr.rdStatus, s.statusWord),
        (0x08#8, Instr.rdBright, s.level.setWidth 32),
        (0x0C#8, Instr.rdCmd, 0#32),
        (0x10#8, Instr.rdData, s.data),
        (0x14#8, Instr.rdValue, s.value),
        (0x18#8, Instr.rdSegq, (digitToSegments s.params s.segcode.toInt).setWidth 32),
        (0x1C#8, Instr.rdSum, s.sumr.setWidth 32) ] →
    exec i s = .next { s with resp := .data v }
      ∧ step { s with inputs := .event (.host ⟨0#1 ++ off, 4, data⟩) :: rest }
          = .next { s with inputs := rest, resp := .data v }

/-- R37, R109: the STATUS word as a number: BUSY in bit 0, NACK in bit 1, CMDERR in bit 2, FILL from bit 8, CUR from
bit 16, and every other bit 0. -/
def Obligations.StatusReadHasItsFields : Prop :=
  ∀ s : State, ∃ w : Word,
    exec .rdStatus s = .next { s with resp := .data w }
      ∧ w.toNat = (if s.prog = [] then 0 else 1) + 2 * s.nack.toNat + 4 * s.cmderr.toNat + 256 * s.fill.toNat
          + 65536 * s.cur.toNat

/-- R63: writes to the read-only registers change no state and raise no error. -/
def Obligations.ReadOnlyWritesAreIgnored : Prop :=
  ∀ (s : State) (v : Word),
    exec (.wrAvg v) s = .next { s with resp := .done }
      ∧ exec (.wrStatus v) s = .next { s with resp := .done }
      ∧ exec (.wrSum v) s = .next { s with resp := .done }

/-- R160, R38: WR.BRIGHT stores min(v, 7) of the unsigned word and nothing else, and RD.BRIGHT then answers it. -/
def Obligations.BrightnessWriteClamps : Prop :=
  ∀ (s : State) (v : Word), ∃ t : State,
    exec (.wrBright v) s = .next t
      ∧ t.level.toNat = min v.toNat 7
      ∧ t = { s with level := t.level, resp := .done }
      ∧ exec .rdBright t = .next { t with resp := .data (BitVec.ofNat 32 (min v.toNat 7)) }

/-- R140, R172, R174: the three plain stores, at every value, change the one register. -/
def Obligations.PlainRegisterWritesStore : Prop :=
  ∀ (s : State) (v : Word),
    exec (.wrData v) s = .next { s with data := v, resp := .done }
      ∧ exec (.wrValue v) s = .next { s with value := v, resp := .done }
      ∧ exec (.wrSegq v) s = .next { s with segcode := v, resp := .done }

/-- R139: RD.SEGQ answers the bitmap of the whole signed code: a digit's for 0 to 9, the minus for -1, else 0. -/
def Obligations.SegqReadLooksUpTheWholeCode : Prop :=
  ∀ s : State, ∃ b : Byte,
    exec .rdSegq s = .next { s with resp := .data (BitVec.ofNat 32 b.toNat) }
      ∧ (∀ d : Fin 10, s.segcode.toNat = d.val → b = s.params.digitSeg[d])
      ∧ (s.segcode = 0xFFFFFFFF#32 → b = s.params.minusSeg)
      ∧ (10 ≤ s.segcode.toNat → s.segcode ≠ 0xFFFFFFFF#32 → b = 0#8)

/-- R61, R222: a host access of another size or a misaligned one ends with the error response, which carries the
offset, the size and the direction, and nothing else changes; an aligned word access in the window names an operation. -/
def Obligations.BusErrorChangesNothingElse : Prop :=
  ∀ (s : State) (rest : List Input) (a : Access),
    a.desc.toNat % 256 < 32 →
    ((a.n ≠ 4 ∨ a.desc.toNat % 4 ≠ 0) →
      step { s with inputs := .event (.host a) :: rest }
        = .next { s with
            inputs := rest
            resp := .busError (BitVec.ofNat 8 a.desc.toNat) a.n (if 256 ≤ a.desc.toNat then .write else .read) })
    ∧ (a.n = 4 → a.desc.toNat % 4 = 0 → ∃ i : Instr, decodeBus a = .instr i)

/-- R68: an access outside the window is not the block's. That the model refuses it, while reset is asserted too, is its
own choice (log entries 11, 13). -/
def Obligations.AccessOutsideTheWindowIsRefused : Prop :=
  ∀ (s : State) (rest : List Input) (a : Access),
    32 ≤ a.desc.toNat % 256 →
    step { s with inputs := .event (.host a) :: rest } = .refused .outsideWindow
      ∧ ∀ before after : List Event, portsAccept s.params before →
        step { s with inputs := .reset (before ++ .host a :: after) :: rest } = .refused .outsideWindow

/-! ## The AVG unit -/

/-- R102, R104, R106: SAMPLE on a state of the AVG unit's invariant: the slot at CUR takes the sample, the sum loses the
evicted value and gains the new one, the cursor wraps, FILL saturates, the truncated mean is published, and no other
state changes. -/
def Obligations.SampleInsertsAndPublishes : Prop :=
  ∀ (s : State) (d : Sample),
    AvgInv s → d.toNat < 2 ^ s.params.sampleW →
    ∃ t : State,
      exec (.sample d) s = .next t
        ∧ (∀ j : Fin 32, t.buf[j] = if j.val = s.cur.toNat then d else s.buf[j])
        ∧ (∀ j : Fin 32, j.val = s.cur.toNat → t.sumr.toNat + s.buf[j].toNat = s.sumr.toNat + d.toNat)
        ∧ t.cur.toNat = (s.cur.toNat + 1) % 32
        ∧ t.fill.toNat = min (s.fill.toNat + 1) 32
        ∧ t.avgr.toNat = t.sumr.toNat / t.fill.toNat
        ∧ t = { s with buf := t.buf, sumr := t.sumr, cur := t.cur, fill := t.fill, avgr := t.avgr }

/-- R225: a sample value wider than `SAMPLE_W` is refused, at the port, while reset is asserted too, and as an operation.
That such a sample stands in the reset's own schedule entry is the model's form (log entry 13). -/
def Obligations.WideSampleIsRefused : Prop :=
  (∀ (s : State) (rest : List Input) (d : Nat),
      2 ^ s.params.sampleW ≤ d →
      step { s with inputs := .event (.sample d) :: rest } = .refused .sampleTooWide
        ∧ ∀ before after : List Event, portsAccept s.params before →
          step { s with inputs := .reset (before ++ .sample d :: after) :: rest } = .refused .sampleTooWide)
    ∧ (∀ (s : State) (d : Sample),
      2 ^ s.params.sampleW ≤ d.toNat → exec (.sample d) s = .refused .sampleTooWide)

/-- R22, R26 (i)-(iii): every step keeps the AVG unit's invariant, whatever agent moves. -/
def Obligations.StepKeepsAveragerInvariant : Prop :=
  ∀ s t : State, AvgInv s → step s = .next t → AvgInv t

/-- R110: from reset, after any run of k samples, AVGR is the truncated mean of the last min(k, 32), and 0 for k = 0. -/
def Obligations.AverageIsTheMeanOfTheWindow : Prop :=
  ∀ (p : Params) (ds : List Nat),
    (∀ d ∈ ds, d < 2 ^ p.sampleW) →
    ∃ t : State,
      Host.Core.run core ds.length { State.resetWith p with inputs := sampleInputs ds } = .next t
        ∧ t.avgr.toNat = windowMean ds

/-- R21-R25, R113: only a SAMPLE and reset write the AVG unit's state. -/
def Obligations.OnlySampleAndResetWriteTheAverager : Prop :=
  ∀ s t : State,
    step s = .next t →
    (∀ d rest, s.inputs ≠ .event (.sample d) :: rest) →
    (∀ ds rest, s.inputs ≠ .reset ds :: rest) →
    t.buf = s.buf ∧ t.sumr = s.sumr ∧ t.cur = s.cur ∧ t.fill = s.fill ∧ t.avgr = s.avgr

/-- R111: two reads of AVG with any steps between them, none a SAMPLE or a reset, answer the same value. A WAITIDLE on the
way is one in which the other agents bring neither. -/
def Obligations.AverageReadIsIdempotent : Prop :=
  ∀ (n : Nat) (s t : State),
    (∀ x ∈ s.inputs, x.writesAverager = false) →
    Host.Core.run core n s = .next t →
    ∃ w : Word,
      exec .rdAvg s = .next { s with resp := .data w } ∧ exec .rdAvg t = .next { t with resp := .data w }

/-! ## Segment encoding and number rendering -/

/-- R131: the digit table, the minus for -1, blank for every other integer. -/
def Obligations.DigitToSegmentsIsTheTable : Prop :=
  ∀ p : Params,
    (∀ d : Fin 10, digitToSegments p (d.val : Int) = p.digitSeg[d])
      ∧ digitToSegments p (-1) = p.minusSeg
      ∧ (∀ d : Int, d < -1 ∨ 9 < d → digitToSegments p d = 0#8)

/-- R135, R136: outside -999..9999 the cells are the overflow glyph, whatever the tables. -/
def Obligations.OutOfRangeRendersTheOverflowGlyph : Prop :=
  ∀ (p : Params) (v : Int) (lz : Bool),
    v < -999 ∨ 9999 < v → renderCells p v lz = [0x3F#8, 0x1C#8, 0x79#8, 0x50#8]

/-- R136, R137 (a)-(d): a value from 0 to 9999: with leading zeros four digits, without them blanks to the left of the
most significant digit, the ones digit always in cell 3. -/
def Obligations.NonNegativeValuesRenderTheirDigits : Prop :=
  ∀ (p : Params) (a : Nat),
    a ≤ 9999 →
    renderCells p a true
        = [ digitToSegments p (a / 1000 % 10 : Nat), digitToSegments p (a / 100 % 10 : Nat),
            digitToSegments p (a / 10 % 10 : Nat), digitToSegments p (a % 10 : Nat) ]
      ∧ renderCells p a false
        = [ if a < 1000 then 0#8 else digitToSegments p (a / 1000 % 10 : Nat),
            if a < 100 then 0#8 else digitToSegments p (a / 100 % 10 : Nat),
            if a < 10 then 0#8 else digitToSegments p (a / 10 % 10 : Nat),
            digitToSegments p (a % 10 : Nat) ]

/-- R136, R137 (b)-(d): a value from -999 to -1: up to three digits with the minus in the next cell to the left, and
with leading zeros three digits with the minus in cell 0. -/
def Obligations.NegativeValuesRenderMinusAndDigits : Prop :=
  ∀ (p : Params) (a : Nat),
    1 ≤ a → a ≤ 999 →
    renderCells p (-(a : Int)) true
        = [ p.minusSeg, digitToSegments p (a / 100 % 10 : Nat),
            digitToSegments p (a / 10 % 10 : Nat), digitToSegments p (a % 10 : Nat) ]
      ∧ renderCells p (-(a : Int)) false
        = [ if a < 100 then 0#8 else p.minusSeg,
            if a < 10 then 0#8 else if a < 100 then p.minusSeg else digitToSegments p (a / 100 % 10 : Nat),
            if a < 10 then p.minusSeg else digitToSegments p (a / 10 % 10 : Nat),
            digitToSegments p (a % 10 : Nat) ]

/-! ## Display commands -/

/-- R166: CLEAR while idle sends four zero cells; while BUSY it is rejected. The CMD write of its word does the same. -/
def Obligations.ClearSendsBlankCells : Prop :=
  ∀ (s : State) (o : Host.Outcome State Fault Refusal),
    o = exec .clear s ∨ o = exec (.wrCmd 0x00000001#32) s →
    (s.prog = [] → o = .next (acceptedWith 0x40#8 0 [0#8, 0#8, 0#8, 0#8] s))
      ∧ (s.prog ≠ [] → o = .next (commandRejected s))

/-- R167: RENDER_DIGITS while idle sends the four lanes of DATA verbatim; while BUSY it is rejected. -/
def Obligations.RenderDigitsSendsTheDataLanes : Prop :=
  ∀ (s : State) (o : Host.Outcome State Fault Refusal),
    o = exec .renderDigits s ∨ o = exec (.wrCmd 0x00000002#32) s →
    (s.prog = [] →
      o = .next (acceptedWith 0x40#8 0
        [ BitVec.ofNat 8 s.data.toNat, BitVec.ofNat 8 (s.data.toNat / 256),
          BitVec.ofNat 8 (s.data.toNat / 65536), BitVec.ofNat 8 (s.data.toNat / 16777216) ] s))
      ∧ (s.prog ≠ [] → o = .next (commandRejected s))

/-- R168: RENDER_NUMBER while idle sends the rendered cells of the signed VALUE, which are four; while BUSY it is
rejected. -/
def Obligations.RenderNumberSendsTheRenderedValue : Prop :=
  ∀ (s : State) (lz : Bool) (o : Host.Outcome State Fault Refusal),
    o = exec (.renderNumber lz) s ∨ o = exec (.wrCmd (if lz then 0x00000013#32 else 0x00000003#32)) s →
    (renderCells s.params s.value.toInt lz).length = 4
      ∧ (s.prog = [] → o = .next (acceptedWith 0x40#8 0 (renderCells s.params s.value.toInt lz) s))
      ∧ (s.prog ≠ [] → o = .next (commandRejected s))

/-- R169, R87 (b): DISPLAY(p, l) while idle sends lanes p to p + l - 1 from start cell p when p + l ≤ 4, and is rejected
when p + l > 4 or while BUSY. -/
def Obligations.DisplaySendsTheChosenLanes : Prop :=
  ∀ (s : State) (p l : Nat) (o : Host.Outcome State Fault Refusal),
    p ≤ 3 → 1 ≤ l → l ≤ 4 →
    o = exec (.display (BitVec.ofNat 2 p) (BitVec.ofNat 2 (l - 1))) s
      ∨ o = exec (.wrCmd (BitVec.ofNat 32 (4 + 256 * p + 4096 * (l - 1)))) s →
    (s.prog = [] → p + l ≤ 4 →
      o = .next (acceptedWith 0x40#8 p
        ((List.range l).map fun j => BitVec.ofNat 8 (s.data.toNat / 2 ^ (8 * (p + j)))) s))
      ∧ (s.prog ≠ [] ∨ 4 < p + l → o = .next (commandRejected s))

/-- R170: WRITE_FIXED(p) while idle sends 0x44 and then exactly the one data byte of lane p; while BUSY it is rejected. -/
def Obligations.WriteFixedSendsOneLane : Prop :=
  ∀ (s : State) (p : Nat) (o : Host.Outcome State Fault Refusal),
    p ≤ 3 →
    o = exec (.writeFixed (BitVec.ofNat 2 p)) s ∨ o = exec (.wrCmd (BitVec.ofNat 32 (5 + 256 * p))) s →
    (s.prog = [] → o = .next (acceptedWith 0x44#8 p [BitVec.ofNat 8 (s.data.toNat / 2 ^ (8 * p))] s))
      ∧ (s.prog ≠ [] → o = .next (commandRejected s))

/-- R162: any CMD write while BUSY sets CMDERR and changes nothing else. -/
def Obligations.CommandWhileBusyIsRejected : Prop :=
  ∀ (s : State) (w : Word), s.prog ≠ [] → exec (.wrCmd w) s = .next { s with cmderr := true, resp := .done }

/-- R87, R164: while idle, a word of no row, or of DISPLAY with POS + LEN > 4, sets CMDERR and changes nothing else. -/
def Obligations.IllegalCommandIsRejected : Prop :=
  ∀ (s : State) (w : Word),
    s.prog = [] →
    w ≠ 1#32 → w ≠ 2#32 → w &&& 0xFFFFFFEF#32 ≠ 3#32 → w &&& 0xFFFFFCFF#32 ≠ 5#32 →
    (w &&& 0xFFFFCCFF#32 = 4#32 → 4 < (w.extractLsb' 8 2).toNat + (w.extractLsb' 12 2).toNat + 1) →
    exec (.wrCmd w) s = .next { s with cmderr := true, resp := .done }

/-! ## Encoding -/

/-- R84-R88: the CMD decoder, word by word: which words name which command. -/
def Obligations.CmdDecoderFollowsTheFieldTable : Prop :=
  ∀ w : Word,
    (decodeCmd w = some .clear ↔ w.toNat = 1)
      ∧ (decodeCmd w = some .renderDigits ↔ w.toNat = 2)
      ∧ (∀ lz : Bool, decodeCmd w = some (.renderNumber lz) ↔ w.toNat = 3 + 16 * lz.toNat)
      ∧ (∀ pos lenm1 : BitVec 2, decodeCmd w = some (.display pos lenm1) ↔
          w.toNat = 4 + 256 * pos.toNat + 4096 * lenm1.toNat ∧ pos.toNat + (lenm1.toNat + 1) ≤ 4)
      ∧ (∀ pos : BitVec 2, decodeCmd w = some (.writeFixed pos) ↔ w.toNat = 5 + 256 * pos.toNat)

/-- Decoding the encoding of a well-formed operation gives it back, for every operation and every operand. -/
def Obligations.DecodeOfEncodeIsTheInstruction : Prop :=
  ∀ (p : Params) (i : Instr), i.wf p = true → decode p (encode i) = .instr i

/-- The other direction: what the decoder reads is well-formed, and each port word has the one meaning its encoding
gives; only a read's data word and a bus access's size (always 4) are not part of it. -/
def Obligations.DecodedWordIsItsEncoding : Prop :=
  ∀ (p : Params) (pw : PortWord) (i : Instr),
    decode p pw = .instr i →
    i.wf p = true
      ∧ match pw with
        | .bus a => a.n = 4 ∧ encode i = .bus ⟨a.desc, 4, if 256 ≤ a.desc.toNat then a.data else 0#32⟩
        | .smp d => encode i = .smp d
        | .cmd w => encode i = .cmd w
        | .tm b => encode i = .tm b

/-- R90, R91: the command bytes are exactly 0x40, 0x44, 0xC0 to 0xC3 and 0x88 to 0x8F. -/
def Obligations.CommandBytesAreTheFourteen : Prop :=
  ∀ (p : Params) (b : Byte),
    (∃ i, decode p (.tm b) = .instr i) ↔
      b.toNat = 0x40 ∨ b.toNat = 0x44 ∨ (0xC0 ≤ b.toNat ∧ b.toNat ≤ 0xC3) ∨ (0x88 ≤ b.toNat ∧ b.toNat ≤ 0x8F)

/-- A few words whose bits are written out from R82, R85 and R90 decode to their rows. That `decodeTableWord` reads 16
bits as a BUS descriptor with n = 4 and write data 0 (so that WR.BRIGHT comes with the word 0), 32 bits as a CMD word
and 8 bits as a command byte is the model's choice (log entry 9). -/
def Obligations.WrittenWordsDecodeToTheirRows : Prop :=
  decodeTableWord 16 0b000000000 = some .rdAvg
    ∧ decodeTableWord 16 0b100001000 = some (.wrBright 0#32)
    ∧ decodeTableWord 16 0b000011100 = some .rdSum
    ∧ decodeTableWord 32 0b10011 = some (.renderNumber true)
    ∧ decodeTableWord 32 0b01001000000100 = some (.display 2#2 1#2)
    ∧ decodeTableWord 32 0b1100000101 = some (.writeFixed 3#2)
    ∧ decodeTableWord 8 0b11000010 = some (.tmAddr 2#2)
    ∧ decodeTableWord 8 0b10001101 = some (.tmDisp 5#3)

/-! ## One step -/

/-- A step runs the decoded instruction on the state with its schedule entry used: a host access, a CMD word in its write
or a sample at the head of the schedule, and, when the sequencer moves, the command byte at the head of PROG. Whatever
the item at the head of PROG, the sequencer's turn is one sequencer step, interleaved with any schedule; with PROG empty
the turn passes. That a TM operation is one event of its byte is the model's reading (log entry 7). -/
def Obligations.StepRunsTheDecodedInstruction : Prop :=
  (∀ (s : State) (rest : List Input) (a : Access) (i : Instr),
      decode s.params (.bus a) = .instr i →
      step { s with inputs := .event (.host a) :: rest } = exec i { s with inputs := rest })
    ∧ (∀ (s : State) (rest : List Input) (d : Nat) (i : Instr),
      decode s.params (.smp d) = .instr i →
      step { s with inputs := .event (.sample d) :: rest } = exec i { s with inputs := rest })
    ∧ (∀ (s s' : State) (items : List Item) (b : Byte) (i : Instr),
      SequencerMoves s s' → s.prog = .byte b :: items → s.firstByte = true → decode s.params (.tm b) = .instr i →
      step s = exec i s')
    ∧ (∀ s s' : State, SequencerMoves s s' → step s = seqStep s')
    ∧ (∀ (s : State) (rest : List Input), s.prog = [] →
      step { s with inputs := [] } = .next { s with inputs := [] }
        ∧ step { s with inputs := .event .seq :: rest } = .next { s with inputs := rest }
        ∧ step { s with inputs := .event .seqAll :: rest } = .next { s with inputs := rest })
    ∧ (∀ (s : State) (rest : List Input) (w : Word) (i : Instr),
      decode s.params (.cmd w) = .instr i →
      step { s with inputs := .event (.host (writeAccess 0x0C#8 w)) :: rest } = exec i { s with inputs := rest })

/-- The word that `withFetchWord` stores is the one the next step decodes and runs: a host access, a CMD word or a sample
on the state as it was, and a command byte as the first of the transaction under way. -/
def Obligations.StoredTableWordIsRunNext : Prop :=
  ∀ (s : State) (w : Nat) (i : Instr),
    (decodeTableWord 16 w = some i → step (s.withFetchWord 16 w) = exec i s)
      ∧ (decodeTableWord 32 w = some i → step (s.withFetchWord 32 w) = exec i s)
      ∧ (decodeTableWord 0 w = some i → step (s.withFetchWord 0 w) = exec i s)
      ∧ (decodeTableWord 8 w = some i → onWire i = false → step (s.withFetchWord 8 w) = exec i s)
      ∧ (decodeTableWord 8 w = some i → onWire i = true →
          step (s.withFetchWord 8 w)
            = exec i { s with prog := .byte (BitVec.ofNat 8 w) :: s.prog, k := 0, ackok := false, firstByte := true })

/-! ## The DISP sequencer and the wire -/

/-- R177-R180, R190, R193: the four command bytes. While its byte is the first of the transaction under way, each
operation performs one event of the byte and appends it to TRACE; at event 6j + 2 that event drives bit j, the least
significant bit first. Only the sequencer's and the lines' state changes, and the byte leaves PROG with its last event. That one TM operation is
one event of its byte, not the whole byte, is the model's reading of R190 (log entry 7). -/
def Obligations.CommandByteSendsOneEvent : Prop :=
  ∀ (s : State) (i : Instr) (b : Byte) (rest : List Item),
    ((i = .tmAuto ∧ b = 0x40#8) ∨ (i = .tmFixed ∧ b = 0x44#8)
      ∨ (∃ pos : BitVec 2, i = .tmAddr pos ∧ b = BitVec.ofNat 8 (0xC0 + pos.toNat))
      ∨ (∃ level : BitVec 3, i = .tmDisp level ∧ b = BitVec.ofNat 8 (0x88 + level.toNat))) →
    s.firstByte = true → s.prog = .byte b :: rest → s.k < (if s.ackok then 57 else 59) →
    (∃ (t : State) (e : TraceEntry),
      exec i s = .next t
        ∧ t = { s with
            prog := t.prog, k := t.k, ackok := t.ackok, nack := t.nack, clkLvl := t.clkLvl, dioMode := t.dioMode,
            trace := s.trace ++ [e], acks := t.acks, draws := t.draws, firstByte := t.firstByte }
        ∧ (s.k < 56 → t.prog = s.prog ∧ t.k = s.k + 1)
        ∧ (s.ackok = true → s.k = 56 → t.prog = rest ∧ t.k = 0)
        ∧ (s.ackok = false → s.k = 58 → t.prog = rest ∧ t.k = 0))
      ∧ (∀ j : Nat, j < 8 → s.k = 6 * j + 2 →
        exec i s = .next { s with
          dioMode := if b.getLsbD j then .out1 else .out0
          trace := s.trace ++ [.dio (b.getLsbD j)]
          k := s.k + 1 })

/-- R91, R92: a command byte is sent only where the sequencer is due to send it. That the model refuses the operation
elsewhere is its own choice (log entry 8). -/
def Obligations.CommandByteNotDueIsRefused : Prop :=
  ∀ (s : State) (i : Instr),
    ((i = .tmAuto ∧ s.prog.head? ≠ some (.byte 0x40#8))
      ∨ (i = .tmFixed ∧ s.prog.head? ≠ some (.byte 0x44#8))
      ∨ (∃ pos : BitVec 2, i = .tmAddr pos ∧ s.prog.head? ≠ some (.byte (BitVec.ofNat 8 (0xC0 + pos.toNat))))
      ∨ (∃ level : BitVec 3, i = .tmDisp level ∧ s.prog.head? ≠ some (.byte (BitVec.ofNat 8 (0x88 + level.toNat))))
      ∨ (onWire i = true ∧ s.firstByte = false)) →
    exec i s = .refused .commandByteNotDue

/-- R193: the data phase of any BYTE, event by event: CLK low, WAIT, DIO at bit j, WAIT, CLK high, WAIT. -/
def Obligations.DataPhaseSendsBitsLsbFirst : Prop :=
  ∀ (s₀ s : State) (b : Byte) (rest : List Item) (j : Nat),
    SequencerMoves s₀ s → s.prog = .byte b :: rest → j < 8 →
    (s.k = 6 * j → step s₀ = .next { s with clkLvl := false, trace := s.trace ++ [.clk false], k := s.k + 1 })
      ∧ (s.k = 6 * j + 1 → step s₀ = .next { s with trace := s.trace ++ [.wait], k := s.k + 1 })
      ∧ (s.k = 6 * j + 2 → step s₀ = .next { s with
          dioMode := if b.getLsbD j then .out1 else .out0
          trace := s.trace ++ [.dio (b.getLsbD j)]
          k := s.k + 1 })
      ∧ (s.k = 6 * j + 3 → step s₀ = .next { s with trace := s.trace ++ [.wait], k := s.k + 1 })
      ∧ (s.k = 6 * j + 4 → step s₀ = .next { s with clkLvl := true, trace := s.trace ++ [.clk true], k := s.k + 1 })
      ∧ (s.k = 6 * j + 5 → step s₀ = .next { s with trace := s.trace ++ [.wait], k := s.k + 1 })

/-- R194: the ack slot of any BYTE up to its READ. -/
def Obligations.AckSlotReleasesTheLine : Prop :=
  ∀ (s₀ s : State) (b : Byte) (rest : List Item),
    SequencerMoves s₀ s → s.prog = .byte b :: rest →
    (s.k = 48 → step s₀ = .next { s with clkLvl := false, trace := s.trace ++ [.clk false], k := 49 })
      ∧ (s.k = 49 → step s₀ = .next { s with dioMode := .released, trace := s.trace ++ [.dioRel], k := 50 })
      ∧ (s.k = 50 → step s₀ = .next { s with trace := s.trace ++ [.wait], k := 51 })
      ∧ (s.k = 51 → step s₀ = .next { s with clkLvl := true, trace := s.trace ++ [.clk true], k := 52 })
      ∧ (s.k = 52 → step s₀ = .next { s with trace := s.trace ++ [.wait], k := 53 })

/-- R196: the READ of a BYTE: the receiver's level r is the ack exactly when it is 0, and a 1 sets NACK. R95: ACK lines
answer READs in order, and with none left the level is a free draw, of which nothing is claimed. That the answers wait in
`acks`, and that the counter `draws` goes up with a free draw, is the model's choice (log entry 4). -/
def Obligations.AckReadJudgesTheLevel : Prop :=
  ∀ (s₀ s : State) (b : Byte) (rest : List Item),
    SequencerMoves s₀ s → s.prog = .byte b :: rest → s.k = 53 →
    (∀ (r : Bool) (rs : List Bool), s.acks = r :: rs →
      step s₀ = .next { s with
        ackok := !r, nack := s.nack || r, acks := rs, trace := s.trace ++ [.read r], k := 54 })
      ∧ (s.acks = [] → ∃ r : Bool,
        step s₀ = .next { s with
          ackok := !r, nack := s.nack || r, draws := s.draws + 1, trace := s.trace ++ [.read r], k := 54 })

/-- R194: the end of a BYTE: with the ack observed three events and the item is done at 57; without it the block drives
DIO low, ends the clock pulse, releases DIO, and is done at 59. -/
def Obligations.AckPhaseEndsAsTheAckSays : Prop :=
  ∀ (s₀ s : State) (b : Byte) (rest : List Item),
    SequencerMoves s₀ s → s.prog = .byte b :: rest →
    (s.ackok = true →
      (s.k = 54 → step s₀ = .next { s with trace := s.trace ++ [.wait], k := 55 })
        ∧ (s.k = 55 → step s₀ = .next { s with clkLvl := false, trace := s.trace ++ [.clk false], k := 56 })
        ∧ (s.k = 56 → step s₀ = .next { s with
            trace := s.trace ++ [.wait], prog := rest, k := 0, ackok := false, firstByte := false }))
      ∧ (s.ackok = false →
        (s.k = 54 → step s₀ = .next { s with dioMode := .out0, trace := s.trace ++ [.dio false], k := 55 })
          ∧ (s.k = 55 → step s₀ = .next { s with trace := s.trace ++ [.wait], k := 56 })
          ∧ (s.k = 56 → step s₀ = .next { s with clkLvl := false, trace := s.trace ++ [.clk false], k := 57 })
          ∧ (s.k = 57 → step s₀ = .next { s with trace := s.trace ++ [.wait], k := 58 })
          ∧ (s.k = 58 → step s₀ = .next { s with
              dioMode := .released, trace := s.trace ++ [.dioRel],
              prog := rest, k := 0, ackok := false, firstByte := false }))

/-- R192: the four events of START. -/
def Obligations.StartSendsItsFourEvents : Prop :=
  ∀ (s₀ s : State) (rest : List Item),
    SequencerMoves s₀ s → s.prog = .start :: rest →
    (s.k = 0 → step s₀ = .next { s with dioMode := .out0, trace := s.trace ++ [.dio false], k := 1 })
      ∧ (s.k = 1 → step s₀ = .next { s with trace := s.trace ++ [.wait], k := 2 })
      ∧ (s.k = 2 → step s₀ = .next { s with clkLvl := false, trace := s.trace ++ [.clk false], k := 3 })
      ∧ (s.k = 3 → step s₀ = .next { s with
          trace := s.trace ++ [.wait], prog := rest, k := 0, ackok := false, firstByte := true })

/-- R197, R199: the eight events of STOP; the last one removes it, and with the last item it ends BUSY. That SNAP stays as
it was when the command has ended is the model's choice (log entry 5). -/
def Obligations.StopSendsItsEightEvents : Prop :=
  ∀ (s₀ s : State) (rest : List Item),
    SequencerMoves s₀ s → s.prog = .stop :: rest →
    (s.k = 0 → step s₀ = .next { s with clkLvl := false, trace := s.trace ++ [.clk false], k := 1 })
      ∧ (s.k = 1 → step s₀ = .next { s with trace := s.trace ++ [.wait], k := 2 })
      ∧ (s.k = 2 → step s₀ = .next { s with dioMode := .out0, trace := s.trace ++ [.dio false], k := 3 })
      ∧ (s.k = 3 → step s₀ = .next { s with trace := s.trace ++ [.wait], k := 4 })
      ∧ (s.k = 4 → step s₀ = .next { s with clkLvl := true, trace := s.trace ++ [.clk true], k := 5 })
      ∧ (s.k = 5 → step s₀ = .next { s with trace := s.trace ++ [.wait], k := 6 })
      ∧ (s.k = 6 → step s₀ = .next { s with dioMode := .out1, trace := s.trace ++ [.dio true], k := 7 })
      ∧ (s.k = 7 → step s₀ = .next { s with
          trace := s.trace ++ [.wait], prog := rest, k := 0, ackok := false, firstByte := false })

/-- R31, R34, R91, R190, R192, R197: every step keeps the sequencer's and the lines' invariant. -/
def Obligations.StepKeepsWireInvariant : Prop :=
  ∀ s t : State, WireInv s → step s = .next t → WireInv t

/-- R31: SNAP keeps its shape: a mode byte of 0x40 or 0x44 and one to four cells. That a reset step keeps it rests on the
value the model gives SNAP at reset, and that SNAP keeps it while idle on R31 where U11 leaves it any value: the model's
choices (log entry 5). -/
def Obligations.StepKeepsSnapShape : Prop :=
  ∀ s t : State, SnapInv s → step s = .next t → SnapInv t

/-- R190: a sequencer whose place is lawful never stops: with PROG not empty each of its turns, in any schedule, appends
exactly one entry to TRACE and leaves the AVG unit, the host's registers and SNAP alone; that SNAP stays when the command
has ended is the model's choice (log entry 5). -/
def Obligations.SequencerAlwaysSteps : Prop :=
  ∀ s₀ s : State,
    SequencerMoves s₀ s → WireInv s → s.prog ≠ [] →
    ∃ (t : State) (e : TraceEntry),
      step s₀ = .next t
        ∧ t = { s with
            prog := t.prog, k := t.k, ackok := t.ackok, nack := t.nack, clkLvl := t.clkLvl, dioMode := t.dioMode,
            trace := s.trace ++ [e], acks := t.acks, draws := t.draws, firstByte := t.firstByte }

/-- R202, R190, R199: only the sequencer's events and reset change the lines and append to TRACE: a step that does is a
reset or the sequencer's turn with PROG not empty, so none follows the end of a command until the next one is accepted;
and no host access and no SAMPLE touches the lines or TRACE. -/
def Obligations.OnlyTheSequencerDrivesTheLines : Prop :=
  (∀ s t : State,
      step s = .next t → (t.clkLvl ≠ s.clkLvl ∨ t.dioMode ≠ s.dioMode ∨ t.trace ≠ s.trace) →
      resetNext s ∨ (s.prog ≠ [] ∧ ∃ s', SequencerMoves s s'))
    ∧ (∀ (i : Instr) (s t : State),
      onWire i = false → exec i s = .next t →
      t.clkLvl = s.clkLvl ∧ t.dioMode = s.dioMode ∧ t.trace = s.trace)

/-- R200: while CLK is high, DIO changes only as START's fall, as STOP's rise, as the forced low of a missed ack, or by
reset. -/
def Obligations.DataLineIsStableWhileClockIsHigh : Prop :=
  ∀ s t : State,
    WireInv s → step s = .next t → s.clkLvl = true → t.dioMode ≠ s.dioMode →
    (∃ ds rest, s.inputs = .reset ds :: rest)
      ∨ (s.prog.head? = some .start ∧ s.k = 0 ∧ s.dioMode = .out1 ∧ t.dioMode = .out0)
      ∨ (s.prog.head? = some .stop ∧ s.k = 6 ∧ s.dioMode = .out0 ∧ t.dioMode = .out1)
      ∨ (∃ b, s.prog.head? = some (.byte b) ∧ s.k = 54 ∧ s.ackok = false ∧ s.dioMode = .released ∧ t.dioMode = .out0)

/-- R40: TRACE is only appended to, and no step changes the implementation's parameters (log entry 1). -/
def Obligations.TraceIsAppendOnly : Prop :=
  ∀ s t : State, step s = .next t → (∃ es : List TraceEntry, t.trace = s.trace ++ es) ∧ t.params = s.params

/-- R33, R255: NACK is sticky: only an accepted command and reset clear it. -/
def Obligations.NackIsClearedOnlyByAcceptance : Prop :=
  ∀ s t : State,
    step s = .next t → s.nack = true → t.nack = false →
    (∃ ds rest, s.inputs = .reset ds :: rest)
      ∨ (s.prog = [] ∧ t.prog ≠ [] ∧ ∃ w, cmdWriteNext w s)

/-- R33, R255: CMDERR is set only by a rejected CMD write, which changes nothing else, and cleared only by an accepted one
and by reset. -/
def Obligations.CmderrFollowsTheCommandWrites : Prop :=
  ∀ s t : State,
    step s = .next t →
    (s.cmderr = true → t.cmderr = false →
      resetNext s ∨ (s.prog = [] ∧ t.prog ≠ [] ∧ ∃ w, cmdWriteNext w s))
      ∧ (s.cmderr = false → t.cmderr = true →
        (∃ w, cmdWriteNext w s ∧ (s.prog ≠ [] ∨ decodeCmd w = none))
          ∧ t = { s with inputs := s.inputs.tail, cmderr := true, resp := .done })

/-- R73, R250: the command in flight does not depend on DATA, VALUE, BRIGHT or SEGQ: with other values in them, and with
another port answer, as a host write leaves them, the block runs on to the same state but for those values, whatever the
other agents do. A host write of one of the registers in between is given as well. -/
def Obligations.CommandInFlightIgnoresLaterWrites : Prop :=
  (∀ (n : Nat) (s t : State) (data value segcode : Word) (level : BitVec 3) (resp : Response),
      (∀ x ∈ s.inputs, x.sparesHostPort = true) → Host.Core.run core n s = .next t →
      Host.Core.run core n { s with data := data, value := value, segcode := segcode, level := level, resp := resp }
        = .next { t with data := data, value := value, segcode := segcode, level := level, resp := resp })
    ∧ (∀ (n : Nat) (s t : State) (off : Byte) (v : Word),
      off ∈ [0x08#8, 0x10#8, 0x14#8, 0x18#8] →
      (∀ x ∈ s.inputs, x.sparesHostPort = true) → Host.Core.run core n s = .next t →
      ∃ t' : State,
        Host.Core.run core (n + 1) { s with inputs := .event (.host (writeAccess off v)) :: s.inputs } = .next t'
          ∧ t' = { t with
              data := t'.data, value := t'.value, segcode := t'.segcode, level := t'.level, resp := t'.resp })

/-- R190, R262: from any lawful state the sequencer, left alone, empties PROG within 59 steps an item. -/
def Obligations.SequencerEmptiesItsProgram : Prop :=
  ∀ s : State,
    WireInv s → s.inputs = [] →
    ∃ (n : Nat) (t : State), n ≤ 59 * s.prog.length ∧ Host.Core.run core n s = .next t ∧ t.prog = []

/-- R182, R198, R199, R261: an accepted command of B bytes, m of them without an ack, ends after exactly 36 + 57 B + 2 m steps
and not before, with B READs, 9 B + 3 CLK rising edges and 18 + 28 B WAITs, with NACK set exactly when m > 0, and with
the lines idle. B is 7 for CLEAR and the render commands, l + 3 for DISPLAY(p, l) and 4 for WRITE_FIXED. -/
def Obligations.AcceptedCommandEndsAfterItsEvents : Prop :=
  ∀ (s s1 : State) (c : Command),
    WireInv s → s.inputs = [] → s.prog = [] → c.legal = true → exec c.toInstr s = .next s1 →
    ∃ (t : State) (es : List TraceEntry),
      Host.Core.run core es.length s1 = .next t
        ∧ t.prog = [] ∧ t.clkLvl = true ∧ t.dioMode = .out1
        ∧ t.trace = s1.trace ++ es
        ∧ es.length = 36 + 57 * byteCount s1.prog + 2 * missedAcks es
        ∧ byteCount s1.prog = (match c with
          | .clear | .renderDigits | .renderNumber _ => 7
          | .display _ lenm1 => lenm1.toNat + 1 + 3
          | .writeFixed _ => 4)
        ∧ readCount es = byteCount s1.prog
        ∧ risingEdges true es = 9 * byteCount s1.prog + 3
        ∧ waitCount es = 18 + 28 * byteCount s1.prog
        ∧ t.nack = decide (0 < missedAcks es)
        ∧ (∀ (m : Nat) (u : State), m < es.length → Host.Core.run core m s1 = .next u → u.prog ≠ [])

/-- R165, R183, R201: whatever the receiver answers, the bytes it reads of an accepted command are the mode byte, then
the address byte and the cells, then the brightness byte of the command's snapshot. The reading takes the forced low of a
missed ack as no START: the model's reading, which R200 (c) and U12 leave open (log entry 15). It begins afresh at the
command's first entry, the model's choice where a reset cut an earlier command short (log entry 23). -/
def Obligations.ReceiverReadsTheLatchedCommand : Prop :=
  ∀ (s s1 : State) (c : Command),
    WireInv s → s.inputs = [] → s.prog = [] → c.legal = true → exec c.toInstr s = .next s1 →
    ∃ (n : Nat) (t : State) (es : List TraceEntry),
      Host.Core.run core n s1 = .next t
        ∧ t.prog = []
        ∧ t.trace = s1.trace ++ es
        ∧ receivedTransactions es
            = [ [s1.snap.mode],
                BitVec.ofNat 8 (0xC0 + s1.snap.pos.toNat) :: s1.snap.cells,
                [BitVec.ofNat 8 (0x88 + s1.snap.level.toNat)] ]

/-! ## Reset -/

/-- R26, R31, R34, R48: the state after reset has the invariants, for every implementation. SNAP's value there is the
model's choice (log entry 5). -/
def Obligations.ResetHasTheInvariants : Prop :=
  ∀ p : Params,
    AvgInv (State.resetWith p) ∧ WireInv (State.resetWith p) ∧ SnapInv (State.resetWith p)

/-- R48, R240: the reset step puts every register, flag, line and sequencer field at its reset value, abandons the
command in flight and appends one IDLE marker. LEVEL is `BRIGHT_RST`, 7 by default (R9). -/
def Obligations.ResetStepGivesTheResetValues : Prop :=
  ∀ (s : State) (rest : List Input), ∃ t : State,
    step { s with inputs := .reset [] :: rest } = .next t
      ∧ (∀ j : Fin 32, t.buf[j] = 0#16)
      ∧ t.sumr = 0#21 ∧ t.cur = 0#5 ∧ t.fill = 0#6 ∧ t.avgr = 0#16
      ∧ t.level = s.params.brightRst ∧ t.data = 0#32 ∧ t.value = 0#32 ∧ t.segcode = 0#32
      ∧ t.prog = [] ∧ t.k = 0 ∧ t.ackok = false ∧ t.nack = false ∧ t.cmderr = false
      ∧ t.clkLvl = true ∧ t.dioMode = .out1
      ∧ t.trace = s.trace ++ [.idle]
      ∧ t.params = s.params ∧ t.inputs = rest

/-- R35, R242: what the host reads right after reset, for every implementation. -/
def Obligations.RegistersReadTheirResetValues : Prop :=
  ∀ (p : Params) (i : Instr) (w : Word),
    (i, w) ∈
      [ (Instr.rdAvg, 0x00000000#32), (Instr.rdStatus, 0x00000000#32), (Instr.rdBright, p.brightRst.setWidth 32),
        (Instr.rdCmd, 0x00000000#32), (Instr.rdData, 0x00000000#32), (Instr.rdValue, 0x00000000#32),
        (Instr.rdSegq, p.digitSeg[0].setWidth 32), (Instr.rdSum, 0x00000000#32) ] →
    exec i (State.resetWith p) = .next { State.resetWith p with resp := .data w }

/-- R241: while reset is asserted the block holds its reset state, whatever arrives: samples, sequencer turns and writes
have no effect, and only the port's answer and the receiver's queued answers differ. Nothing that the ports take stops it.
The port's answer to the last access is the reset value for a read of any of the eight registers, the completion for a
write, and the error for an access of another size or a misaligned one. That the actions are handled inside the reset
step is the model's reading (log entry 13), and the value of SNAP in the reset state is its choice (log entry 5). -/
def Obligations.ResetHoldsTheBlock : Prop :=
  (∀ (s t : State) (during : List Event) (rest : List Input),
      step { s with inputs := .reset during :: rest } = .next t →
      t = { State.resetWith s.params with
            trace := s.trace ++ [.idle], inputs := rest, acks := s.acks ++ ackAnswers during, draws := s.draws
            resp := t.resp })
    ∧ (∀ (s : State) (during : List Event) (rest : List Input),
      portsAccept s.params during → ∃ t : State, step { s with inputs := .reset during :: rest } = .next t)
    ∧ (∀ (s t : State) (before after : List Event) (a : Access) (rest : List Input),
      (∀ a', Event.host a' ∉ after) →
      step { s with inputs := .reset (before ++ .host a :: after) :: rest } = .next t →
      ((a.n ≠ 4 ∨ a.desc.toNat % 4 ≠ 0) → t.resp =
          .busError (BitVec.ofNat 8 a.desc.toNat) a.n (if 256 ≤ a.desc.toNat then .write else .read))
        ∧ (a.n = 4 → a.desc.toNat % 4 = 0 → 256 ≤ a.desc.toNat → t.resp = .done)
        ∧ (∀ (off : Byte) (w : Word),
          (off, w) ∈
            [ (0x00#8, 0x00000000#32), (0x04#8, 0x00000000#32), (0x08#8, s.params.brightRst.setWidth 32),
              (0x0C#8, 0x00000000#32), (0x10#8, 0x00000000#32), (0x14#8, 0x00000000#32),
              (0x18#8, s.params.digitSeg[0].setWidth 32), (0x1C#8, 0x00000000#32) ] →
          a.n = 4 → a.desc = 0#1 ++ off → t.resp = .data w))

/-! ## Host scripts -/

/-- R95: the pseudo-instructions for DISPLAY and WRITE_FIXED expand to the CMD words that name those commands, and the
assembler refuses other operands. R95 says the refusal for DISPLAY; for WRITE_FIXED it is the model's choice (log entry
25). -/
def Obligations.PseudoCommandsExpandToTheirWords : Prop :=
  ∀ (p l : Nat) (w : Wait),
    (1 ≤ l ∧ p + l ≤ 4 → ∃ v : Int,
        (Pseudo.cmdDisp p l).expand w = some (lineInputs [.wr .cmd v])
          ∧ decodeCmd (BitVec.ofInt 32 v) = some (.display (BitVec.ofNat 2 p) (BitVec.ofNat 2 (l - 1))))
      ∧ (¬(1 ≤ l ∧ p + l ≤ 4) → (Pseudo.cmdDisp p l).expand w = none)
      ∧ (p ≤ 3 → ∃ v : Int,
        (Pseudo.cmdWfix p).expand w = some (lineInputs [.wr .cmd v])
          ∧ decodeCmd (BitVec.ofInt 32 v) = some (.writeFixed (BitVec.ofNat 2 p)))
      ∧ (3 < p → (Pseudo.cmdWfix p).expand w = none)

/-- R95: one poll of WAITIDLE: it reads STATUS, leaves the loop when BUSY is 0 and starts the next round when it is 1.
R262, U16: with an unfair scheduler the host polls a busy block on and on, and nothing moves. The rounds as schedule
entries are the model's form of the loop (log entry 14). -/
def Obligations.PollLoopsWhileBusy : Prop :=
  (∀ (s : State) (w : Wait) (rest : List Input),
      step { s with inputs := .poll w :: rest }
        = .next { s with
            inputs := if s.prog = [] then rest else w.nextRound ++ rest
            resp := .data s.statusWord })
    ∧ (∀ (n : Nat) (s : State) (rest : List Input),
      s.prog ≠ [] → s.inputs = .poll ⟨[], false⟩ :: rest →
      Host.Core.run core (n + 1) s = .next { s with resp := .data s.statusWord })

/-- R95: the receiver's ACK lines wait in order for the coming READs and change nothing else. That they wait in `acks` is
the model's choice (log entry 4). -/
def Obligations.AckLinesQueueTheirAnswers : Prop :=
  (∀ (s : State) (r : Bool) (rest : List Input),
      step { s with inputs := .event (.ack r) :: rest } = .next { s with inputs := rest, acks := s.acks ++ [r] })
    ∧ (∀ (s : State) (rs : List Bool) (rest : List Input),
      Host.Core.run core rs.length { s with inputs := rs.map (fun r => .event (.ack r)) ++ rest }
        = .next { s with inputs := rest, acks := s.acks ++ rs })

/-- R95, R251, R262: under a fair scheduler WAITIDLE on a lawful state ends, whatever happens in its rounds: within 59
steps an item of PROG, one for each action, one for each listed poll and two more, the host has left the loop, the block
is idle, and the last STATUS read answered BUSY = 0. The rounds as schedule entries are the model's form of the loop (log
entry 14). -/
def Obligations.WaitIdleEndsIdle : Prop :=
  ∀ (s : State) (w : Wait) (rest : List Input),
    WireInv s → w.fair = true → (∀ acts ∈ w.rounds, ∀ m ∈ acts, m.accepted s.params) →
    s.inputs = w.nextRound ++ rest →
    ∃ (n : Nat) (t : State) (word : Word),
      n ≤ 59 * s.prog.length + w.rounds.flatten.length + w.rounds.length + 2
        ∧ Host.Core.run core n s = .next t
        ∧ t.inputs = rest ∧ t.prog = [] ∧ t.resp = .data word ∧ word.getLsbD 0 = false
end

