-- ==== Sys2Proof/Laws/Decode.lean ====
section
/-! SUPPORT. What the access check passes, and what the decoder then answers (R61, R82). -/

namespace Sys2Proof

/-- The access check passes exactly the aligned word accesses of the window (R61, R68). -/
theorem Access.rejected_eq_none (a : Access) :
    a.rejected = none ↔ a.off.toNat < Config.windowBytes ∧ a.n = 4 ∧ a.off.toNat % 4 = 0 := by
  unfold Access.rejected
  split
  · simp only [reduceCtorEq, false_iff]; omega
  · split
    · simp only [reduceCtorEq, false_iff]; omega
    · split
      · simp only [reduceCtorEq, false_iff]; omega
      · simp only [true_iff]; omega

/-- An access that passes the check decodes to the row of its descriptor (R82). -/
theorem decodeBus_of_row (a : Access) (i : Instr) (hr : a.rejected = none)
    (hi : decodeDescriptor a.desc a.data = some i) : decodeBus a = .instr i := by
  unfold decodeBus
  rw [hr]
  simp only [hi]

/-- An access that fails the check is rejected for it (R61, R68). -/
theorem decodeBus_of_rejected (a : Access) (r : Reject) (hr : a.rejected = some r) :
    decodeBus a = .rejected r := by
  unfold decodeBus
  rw [hr]

/-- The offset of a read descriptor. -/
theorem readAccess_off : ∀ off : Byte, (readAccess off).off = off := by decide

/-- The offset of a write descriptor. -/
theorem writeAccess_off : ∀ (off : Byte) (v : Word), (writeAccess off v).off = off := by
  intro off v
  have h : ∀ off : Byte, (1#1 ++ off).extractLsb' 0 8 = off := by decide
  exact h off

end Sys2Proof
end

