-- ==== Sys2Proof/Laws/State.lean ====
section
/-! SUPPORT. One lemma per field for each shared update of the state, so that no later proof unfolds a record
update. -/

namespace Sys2Proof.Machine

-- Three hundred one-line proofs: without this Lean queues them on more threads than a small machine has memory for.
set_option Elab.async false

/-! ### `respond`: a read changes only the port's answer (R62) -/

@[simp] theorem respond_buf (w : Word) (s : State) : (respond w s).buf = s.buf := rfl
@[simp] theorem respond_sumr (w : Word) (s : State) : (respond w s).sumr = s.sumr := rfl
@[simp] theorem respond_cur (w : Word) (s : State) : (respond w s).cur = s.cur := rfl
@[simp] theorem respond_fill (w : Word) (s : State) : (respond w s).fill = s.fill := rfl
@[simp] theorem respond_avgr (w : Word) (s : State) : (respond w s).avgr = s.avgr := rfl
@[simp] theorem respond_level (w : Word) (s : State) : (respond w s).level = s.level := rfl
@[simp] theorem respond_data (w : Word) (s : State) : (respond w s).data = s.data := rfl
@[simp] theorem respond_value (w : Word) (s : State) : (respond w s).value = s.value := rfl
@[simp] theorem respond_segcode (w : Word) (s : State) : (respond w s).segcode = s.segcode := rfl
@[simp] theorem respond_snap (w : Word) (s : State) : (respond w s).snap = s.snap := rfl
@[simp] theorem respond_prog (w : Word) (s : State) : (respond w s).prog = s.prog := rfl
@[simp] theorem respond_k (w : Word) (s : State) : (respond w s).k = s.k := rfl
@[simp] theorem respond_ackok (w : Word) (s : State) : (respond w s).ackok = s.ackok := rfl
@[simp] theorem respond_nack (w : Word) (s : State) : (respond w s).nack = s.nack := rfl
@[simp] theorem respond_cmderr (w : Word) (s : State) : (respond w s).cmderr = s.cmderr := rfl
@[simp] theorem respond_clkLvl (w : Word) (s : State) : (respond w s).clkLvl = s.clkLvl := rfl
@[simp] theorem respond_dioMode (w : Word) (s : State) : (respond w s).dioMode = s.dioMode := rfl
@[simp] theorem respond_trace (w : Word) (s : State) : (respond w s).trace = s.trace := rfl
@[simp] theorem respond_params (w : Word) (s : State) : (respond w s).params = s.params := rfl
@[simp] theorem respond_inputs (w : Word) (s : State) : (respond w s).inputs = s.inputs := rfl
@[simp] theorem respond_acks (w : Word) (s : State) : (respond w s).acks = s.acks := rfl
@[simp] theorem respond_draws (w : Word) (s : State) : (respond w s).draws = s.draws := rfl
@[simp] theorem respond_resp (w : Word) (s : State) : (respond w s).resp = .data w := rfl
@[simp] theorem respond_firstByte (w : Word) (s : State) : (respond w s).firstByte = s.firstByte := rfl

/-! ### `complete`: a write's completion -/

@[simp] theorem complete_buf (s : State) : (complete s).buf = s.buf := rfl
@[simp] theorem complete_sumr (s : State) : (complete s).sumr = s.sumr := rfl
@[simp] theorem complete_cur (s : State) : (complete s).cur = s.cur := rfl
@[simp] theorem complete_fill (s : State) : (complete s).fill = s.fill := rfl
@[simp] theorem complete_avgr (s : State) : (complete s).avgr = s.avgr := rfl
@[simp] theorem complete_level (s : State) : (complete s).level = s.level := rfl
@[simp] theorem complete_data (s : State) : (complete s).data = s.data := rfl
@[simp] theorem complete_value (s : State) : (complete s).value = s.value := rfl
@[simp] theorem complete_segcode (s : State) : (complete s).segcode = s.segcode := rfl
@[simp] theorem complete_snap (s : State) : (complete s).snap = s.snap := rfl
@[simp] theorem complete_prog (s : State) : (complete s).prog = s.prog := rfl
@[simp] theorem complete_k (s : State) : (complete s).k = s.k := rfl
@[simp] theorem complete_ackok (s : State) : (complete s).ackok = s.ackok := rfl
@[simp] theorem complete_nack (s : State) : (complete s).nack = s.nack := rfl
@[simp] theorem complete_cmderr (s : State) : (complete s).cmderr = s.cmderr := rfl
@[simp] theorem complete_clkLvl (s : State) : (complete s).clkLvl = s.clkLvl := rfl
@[simp] theorem complete_dioMode (s : State) : (complete s).dioMode = s.dioMode := rfl
@[simp] theorem complete_trace (s : State) : (complete s).trace = s.trace := rfl
@[simp] theorem complete_params (s : State) : (complete s).params = s.params := rfl
@[simp] theorem complete_inputs (s : State) : (complete s).inputs = s.inputs := rfl
@[simp] theorem complete_acks (s : State) : (complete s).acks = s.acks := rfl
@[simp] theorem complete_draws (s : State) : (complete s).draws = s.draws := rfl
@[simp] theorem complete_resp (s : State) : (complete s).resp = .done := rfl
@[simp] theorem complete_firstByte (s : State) : (complete s).firstByte = s.firstByte := rfl

/-! ### `raiseBusError` (R222) -/

@[simp] theorem raiseBusError_buf (off : Byte) (n : Nat) (dir : Dir) (s : State) : (raiseBusError off n dir s).buf = s.buf := rfl
@[simp] theorem raiseBusError_sumr (off : Byte) (n : Nat) (dir : Dir) (s : State) : (raiseBusError off n dir s).sumr = s.sumr := rfl
@[simp] theorem raiseBusError_cur (off : Byte) (n : Nat) (dir : Dir) (s : State) : (raiseBusError off n dir s).cur = s.cur := rfl
@[simp] theorem raiseBusError_fill (off : Byte) (n : Nat) (dir : Dir) (s : State) : (raiseBusError off n dir s).fill = s.fill := rfl
@[simp] theorem raiseBusError_avgr (off : Byte) (n : Nat) (dir : Dir) (s : State) : (raiseBusError off n dir s).avgr = s.avgr := rfl
@[simp] theorem raiseBusError_level (off : Byte) (n : Nat) (dir : Dir) (s : State) : (raiseBusError off n dir s).level = s.level := rfl
@[simp] theorem raiseBusError_data (off : Byte) (n : Nat) (dir : Dir) (s : State) : (raiseBusError off n dir s).data = s.data := rfl
@[simp] theorem raiseBusError_value (off : Byte) (n : Nat) (dir : Dir) (s : State) : (raiseBusError off n dir s).value = s.value := rfl
@[simp] theorem raiseBusError_segcode (off : Byte) (n : Nat) (dir : Dir) (s : State) : (raiseBusError off n dir s).segcode = s.segcode := rfl
@[simp] theorem raiseBusError_snap (off : Byte) (n : Nat) (dir : Dir) (s : State) : (raiseBusError off n dir s).snap = s.snap := rfl
@[simp] theorem raiseBusError_prog (off : Byte) (n : Nat) (dir : Dir) (s : State) : (raiseBusError off n dir s).prog = s.prog := rfl
@[simp] theorem raiseBusError_k (off : Byte) (n : Nat) (dir : Dir) (s : State) : (raiseBusError off n dir s).k = s.k := rfl
@[simp] theorem raiseBusError_ackok (off : Byte) (n : Nat) (dir : Dir) (s : State) : (raiseBusError off n dir s).ackok = s.ackok := rfl
@[simp] theorem raiseBusError_nack (off : Byte) (n : Nat) (dir : Dir) (s : State) : (raiseBusError off n dir s).nack = s.nack := rfl
@[simp] theorem raiseBusError_cmderr (off : Byte) (n : Nat) (dir : Dir) (s : State) : (raiseBusError off n dir s).cmderr = s.cmderr := rfl
@[simp] theorem raiseBusError_clkLvl (off : Byte) (n : Nat) (dir : Dir) (s : State) : (raiseBusError off n dir s).clkLvl = s.clkLvl := rfl
@[simp] theorem raiseBusError_dioMode (off : Byte) (n : Nat) (dir : Dir) (s : State) : (raiseBusError off n dir s).dioMode = s.dioMode := rfl
@[simp] theorem raiseBusError_trace (off : Byte) (n : Nat) (dir : Dir) (s : State) : (raiseBusError off n dir s).trace = s.trace := rfl
@[simp] theorem raiseBusError_params (off : Byte) (n : Nat) (dir : Dir) (s : State) : (raiseBusError off n dir s).params = s.params := rfl
@[simp] theorem raiseBusError_inputs (off : Byte) (n : Nat) (dir : Dir) (s : State) : (raiseBusError off n dir s).inputs = s.inputs := rfl
@[simp] theorem raiseBusError_acks (off : Byte) (n : Nat) (dir : Dir) (s : State) : (raiseBusError off n dir s).acks = s.acks := rfl
@[simp] theorem raiseBusError_draws (off : Byte) (n : Nat) (dir : Dir) (s : State) : (raiseBusError off n dir s).draws = s.draws := rfl
@[simp] theorem raiseBusError_resp (off : Byte) (n : Nat) (dir : Dir) (s : State) : (raiseBusError off n dir s).resp = .busError off n dir := rfl
@[simp] theorem raiseBusError_firstByte (off : Byte) (n : Nat) (dir : Dir) (s : State) : (raiseBusError off n dir s).firstByte = s.firstByte := rfl

/-! ### `rejectCommand` (R162, R164) -/

@[simp] theorem rejectCommand_buf (s : State) : (rejectCommand s).buf = s.buf := rfl
@[simp] theorem rejectCommand_sumr (s : State) : (rejectCommand s).sumr = s.sumr := rfl
@[simp] theorem rejectCommand_cur (s : State) : (rejectCommand s).cur = s.cur := rfl
@[simp] theorem rejectCommand_fill (s : State) : (rejectCommand s).fill = s.fill := rfl
@[simp] theorem rejectCommand_avgr (s : State) : (rejectCommand s).avgr = s.avgr := rfl
@[simp] theorem rejectCommand_level (s : State) : (rejectCommand s).level = s.level := rfl
@[simp] theorem rejectCommand_data (s : State) : (rejectCommand s).data = s.data := rfl
@[simp] theorem rejectCommand_value (s : State) : (rejectCommand s).value = s.value := rfl
@[simp] theorem rejectCommand_segcode (s : State) : (rejectCommand s).segcode = s.segcode := rfl
@[simp] theorem rejectCommand_snap (s : State) : (rejectCommand s).snap = s.snap := rfl
@[simp] theorem rejectCommand_prog (s : State) : (rejectCommand s).prog = s.prog := rfl
@[simp] theorem rejectCommand_k (s : State) : (rejectCommand s).k = s.k := rfl
@[simp] theorem rejectCommand_ackok (s : State) : (rejectCommand s).ackok = s.ackok := rfl
@[simp] theorem rejectCommand_nack (s : State) : (rejectCommand s).nack = s.nack := rfl
@[simp] theorem rejectCommand_cmderr (s : State) : (rejectCommand s).cmderr = true := rfl
@[simp] theorem rejectCommand_clkLvl (s : State) : (rejectCommand s).clkLvl = s.clkLvl := rfl
@[simp] theorem rejectCommand_dioMode (s : State) : (rejectCommand s).dioMode = s.dioMode := rfl
@[simp] theorem rejectCommand_trace (s : State) : (rejectCommand s).trace = s.trace := rfl
@[simp] theorem rejectCommand_params (s : State) : (rejectCommand s).params = s.params := rfl
@[simp] theorem rejectCommand_inputs (s : State) : (rejectCommand s).inputs = s.inputs := rfl
@[simp] theorem rejectCommand_acks (s : State) : (rejectCommand s).acks = s.acks := rfl
@[simp] theorem rejectCommand_draws (s : State) : (rejectCommand s).draws = s.draws := rfl
@[simp] theorem rejectCommand_resp (s : State) : (rejectCommand s).resp = s.resp := rfl
@[simp] theorem rejectCommand_firstByte (s : State) : (rejectCommand s).firstByte = s.firstByte := rfl

/-! ### `ackEval` (R196) -/

@[simp] theorem ackEval_buf (r : Bool) (s : State) : (ackEval r s).buf = s.buf := rfl
@[simp] theorem ackEval_sumr (r : Bool) (s : State) : (ackEval r s).sumr = s.sumr := rfl
@[simp] theorem ackEval_cur (r : Bool) (s : State) : (ackEval r s).cur = s.cur := rfl
@[simp] theorem ackEval_fill (r : Bool) (s : State) : (ackEval r s).fill = s.fill := rfl
@[simp] theorem ackEval_avgr (r : Bool) (s : State) : (ackEval r s).avgr = s.avgr := rfl
@[simp] theorem ackEval_level (r : Bool) (s : State) : (ackEval r s).level = s.level := rfl
@[simp] theorem ackEval_data (r : Bool) (s : State) : (ackEval r s).data = s.data := rfl
@[simp] theorem ackEval_value (r : Bool) (s : State) : (ackEval r s).value = s.value := rfl
@[simp] theorem ackEval_segcode (r : Bool) (s : State) : (ackEval r s).segcode = s.segcode := rfl
@[simp] theorem ackEval_snap (r : Bool) (s : State) : (ackEval r s).snap = s.snap := rfl
@[simp] theorem ackEval_prog (r : Bool) (s : State) : (ackEval r s).prog = s.prog := rfl
@[simp] theorem ackEval_k (r : Bool) (s : State) : (ackEval r s).k = s.k := rfl
@[simp] theorem ackEval_ackok (r : Bool) (s : State) : (ackEval r s).ackok = (!r) := rfl
@[simp] theorem ackEval_nack (r : Bool) (s : State) : (ackEval r s).nack = (s.nack || r) := rfl
@[simp] theorem ackEval_cmderr (r : Bool) (s : State) : (ackEval r s).cmderr = s.cmderr := rfl
@[simp] theorem ackEval_clkLvl (r : Bool) (s : State) : (ackEval r s).clkLvl = s.clkLvl := rfl
@[simp] theorem ackEval_dioMode (r : Bool) (s : State) : (ackEval r s).dioMode = s.dioMode := rfl
@[simp] theorem ackEval_trace (r : Bool) (s : State) : (ackEval r s).trace = s.trace := rfl
@[simp] theorem ackEval_params (r : Bool) (s : State) : (ackEval r s).params = s.params := rfl
@[simp] theorem ackEval_inputs (r : Bool) (s : State) : (ackEval r s).inputs = s.inputs := rfl
@[simp] theorem ackEval_acks (r : Bool) (s : State) : (ackEval r s).acks = s.acks := rfl
@[simp] theorem ackEval_draws (r : Bool) (s : State) : (ackEval r s).draws = s.draws := rfl
@[simp] theorem ackEval_resp (r : Bool) (s : State) : (ackEval r s).resp = s.resp := rfl
@[simp] theorem ackEval_firstByte (r : Bool) (s : State) : (ackEval r s).firstByte = s.firstByte := rfl

/-! ### `record`: one entry of TRACE (R195) -/

@[simp] theorem record_buf (e : TraceEntry) (s : State) : (record e s).buf = s.buf := rfl
@[simp] theorem record_sumr (e : TraceEntry) (s : State) : (record e s).sumr = s.sumr := rfl
@[simp] theorem record_cur (e : TraceEntry) (s : State) : (record e s).cur = s.cur := rfl
@[simp] theorem record_fill (e : TraceEntry) (s : State) : (record e s).fill = s.fill := rfl
@[simp] theorem record_avgr (e : TraceEntry) (s : State) : (record e s).avgr = s.avgr := rfl
@[simp] theorem record_level (e : TraceEntry) (s : State) : (record e s).level = s.level := rfl
@[simp] theorem record_data (e : TraceEntry) (s : State) : (record e s).data = s.data := rfl
@[simp] theorem record_value (e : TraceEntry) (s : State) : (record e s).value = s.value := rfl
@[simp] theorem record_segcode (e : TraceEntry) (s : State) : (record e s).segcode = s.segcode := rfl
@[simp] theorem record_snap (e : TraceEntry) (s : State) : (record e s).snap = s.snap := rfl
@[simp] theorem record_prog (e : TraceEntry) (s : State) : (record e s).prog = s.prog := rfl
@[simp] theorem record_k (e : TraceEntry) (s : State) : (record e s).k = s.k := rfl
@[simp] theorem record_ackok (e : TraceEntry) (s : State) : (record e s).ackok = s.ackok := rfl
@[simp] theorem record_nack (e : TraceEntry) (s : State) : (record e s).nack = s.nack := rfl
@[simp] theorem record_cmderr (e : TraceEntry) (s : State) : (record e s).cmderr = s.cmderr := rfl
@[simp] theorem record_clkLvl (e : TraceEntry) (s : State) : (record e s).clkLvl = s.clkLvl := rfl
@[simp] theorem record_dioMode (e : TraceEntry) (s : State) : (record e s).dioMode = s.dioMode := rfl
@[simp] theorem record_trace (e : TraceEntry) (s : State) : (record e s).trace = s.trace ++ [e] := rfl
@[simp] theorem record_params (e : TraceEntry) (s : State) : (record e s).params = s.params := rfl
@[simp] theorem record_inputs (e : TraceEntry) (s : State) : (record e s).inputs = s.inputs := rfl
@[simp] theorem record_acks (e : TraceEntry) (s : State) : (record e s).acks = s.acks := rfl
@[simp] theorem record_draws (e : TraceEntry) (s : State) : (record e s).draws = s.draws := rfl
@[simp] theorem record_resp (e : TraceEntry) (s : State) : (record e s).resp = s.resp := rfl
@[simp] theorem record_firstByte (e : TraceEntry) (s : State) : (record e s).firstByte = s.firstByte := rfl

/-! ### `queueAck` (R95) -/

@[simp] theorem queueAck_buf (r : Bool) (s : State) : (queueAck r s).buf = s.buf := rfl
@[simp] theorem queueAck_sumr (r : Bool) (s : State) : (queueAck r s).sumr = s.sumr := rfl
@[simp] theorem queueAck_cur (r : Bool) (s : State) : (queueAck r s).cur = s.cur := rfl
@[simp] theorem queueAck_fill (r : Bool) (s : State) : (queueAck r s).fill = s.fill := rfl
@[simp] theorem queueAck_avgr (r : Bool) (s : State) : (queueAck r s).avgr = s.avgr := rfl
@[simp] theorem queueAck_level (r : Bool) (s : State) : (queueAck r s).level = s.level := rfl
@[simp] theorem queueAck_data (r : Bool) (s : State) : (queueAck r s).data = s.data := rfl
@[simp] theorem queueAck_value (r : Bool) (s : State) : (queueAck r s).value = s.value := rfl
@[simp] theorem queueAck_segcode (r : Bool) (s : State) : (queueAck r s).segcode = s.segcode := rfl
@[simp] theorem queueAck_snap (r : Bool) (s : State) : (queueAck r s).snap = s.snap := rfl
@[simp] theorem queueAck_prog (r : Bool) (s : State) : (queueAck r s).prog = s.prog := rfl
@[simp] theorem queueAck_k (r : Bool) (s : State) : (queueAck r s).k = s.k := rfl
@[simp] theorem queueAck_ackok (r : Bool) (s : State) : (queueAck r s).ackok = s.ackok := rfl
@[simp] theorem queueAck_nack (r : Bool) (s : State) : (queueAck r s).nack = s.nack := rfl
@[simp] theorem queueAck_cmderr (r : Bool) (s : State) : (queueAck r s).cmderr = s.cmderr := rfl
@[simp] theorem queueAck_clkLvl (r : Bool) (s : State) : (queueAck r s).clkLvl = s.clkLvl := rfl
@[simp] theorem queueAck_dioMode (r : Bool) (s : State) : (queueAck r s).dioMode = s.dioMode := rfl
@[simp] theorem queueAck_trace (r : Bool) (s : State) : (queueAck r s).trace = s.trace := rfl
@[simp] theorem queueAck_params (r : Bool) (s : State) : (queueAck r s).params = s.params := rfl
@[simp] theorem queueAck_inputs (r : Bool) (s : State) : (queueAck r s).inputs = s.inputs := rfl
@[simp] theorem queueAck_acks (r : Bool) (s : State) : (queueAck r s).acks = s.acks ++ [r] := rfl
@[simp] theorem queueAck_draws (r : Bool) (s : State) : (queueAck r s).draws = s.draws := rfl
@[simp] theorem queueAck_resp (r : Bool) (s : State) : (queueAck r s).resp = s.resp := rfl
@[simp] theorem queueAck_firstByte (r : Bool) (s : State) : (queueAck r s).firstByte = s.firstByte := rfl

/-! ### `insertSample` (R102): the fields SAMPLE leaves alone, the cursor and the slot -/

@[simp] theorem insertSample_buf (d : Sample) (s : State) : (insertSample d s).buf = s.buf.set s.cur.toNat d s.cur.isLt := rfl
@[simp] theorem insertSample_cur (d : Sample) (s : State) : (insertSample d s).cur = s.cur + 1#5 := rfl
@[simp] theorem insertSample_fill (d : Sample) (s : State) : (insertSample d s).fill = BitVec.ofNat 6 (min (s.fill.toNat + 1) Config.window) := rfl
@[simp] theorem insertSample_level (d : Sample) (s : State) : (insertSample d s).level = s.level := rfl
@[simp] theorem insertSample_data (d : Sample) (s : State) : (insertSample d s).data = s.data := rfl
@[simp] theorem insertSample_value (d : Sample) (s : State) : (insertSample d s).value = s.value := rfl
@[simp] theorem insertSample_segcode (d : Sample) (s : State) : (insertSample d s).segcode = s.segcode := rfl
@[simp] theorem insertSample_snap (d : Sample) (s : State) : (insertSample d s).snap = s.snap := rfl
@[simp] theorem insertSample_prog (d : Sample) (s : State) : (insertSample d s).prog = s.prog := rfl
@[simp] theorem insertSample_k (d : Sample) (s : State) : (insertSample d s).k = s.k := rfl
@[simp] theorem insertSample_ackok (d : Sample) (s : State) : (insertSample d s).ackok = s.ackok := rfl
@[simp] theorem insertSample_nack (d : Sample) (s : State) : (insertSample d s).nack = s.nack := rfl
@[simp] theorem insertSample_cmderr (d : Sample) (s : State) : (insertSample d s).cmderr = s.cmderr := rfl
@[simp] theorem insertSample_clkLvl (d : Sample) (s : State) : (insertSample d s).clkLvl = s.clkLvl := rfl
@[simp] theorem insertSample_dioMode (d : Sample) (s : State) : (insertSample d s).dioMode = s.dioMode := rfl
@[simp] theorem insertSample_trace (d : Sample) (s : State) : (insertSample d s).trace = s.trace := rfl
@[simp] theorem insertSample_params (d : Sample) (s : State) : (insertSample d s).params = s.params := rfl
@[simp] theorem insertSample_inputs (d : Sample) (s : State) : (insertSample d s).inputs = s.inputs := rfl
@[simp] theorem insertSample_acks (d : Sample) (s : State) : (insertSample d s).acks = s.acks := rfl
@[simp] theorem insertSample_draws (d : Sample) (s : State) : (insertSample d s).draws = s.draws := rfl
@[simp] theorem insertSample_resp (d : Sample) (s : State) : (insertSample d s).resp = s.resp := rfl
@[simp] theorem insertSample_firstByte (d : Sample) (s : State) : (insertSample d s).firstByte = s.firstByte := rfl

/-! ### `accept` (R163) -/

@[simp] theorem accept_buf (c : Command) (s : State) : (accept c s).buf = s.buf := rfl
@[simp] theorem accept_sumr (c : Command) (s : State) : (accept c s).sumr = s.sumr := rfl
@[simp] theorem accept_cur (c : Command) (s : State) : (accept c s).cur = s.cur := rfl
@[simp] theorem accept_fill (c : Command) (s : State) : (accept c s).fill = s.fill := rfl
@[simp] theorem accept_avgr (c : Command) (s : State) : (accept c s).avgr = s.avgr := rfl
@[simp] theorem accept_level (c : Command) (s : State) : (accept c s).level = s.level := rfl
@[simp] theorem accept_data (c : Command) (s : State) : (accept c s).data = s.data := rfl
@[simp] theorem accept_value (c : Command) (s : State) : (accept c s).value = s.value := rfl
@[simp] theorem accept_segcode (c : Command) (s : State) : (accept c s).segcode = s.segcode := rfl
@[simp] theorem accept_snap (c : Command) (s : State) : (accept c s).snap = latch c s := rfl
@[simp] theorem accept_prog (c : Command) (s : State) : (accept c s).prog = wireProgram (latch c s) := rfl
@[simp] theorem accept_k (c : Command) (s : State) : (accept c s).k = 0 := rfl
@[simp] theorem accept_ackok (c : Command) (s : State) : (accept c s).ackok = false := rfl
@[simp] theorem accept_nack (c : Command) (s : State) : (accept c s).nack = false := rfl
@[simp] theorem accept_cmderr (c : Command) (s : State) : (accept c s).cmderr = false := rfl
@[simp] theorem accept_clkLvl (c : Command) (s : State) : (accept c s).clkLvl = s.clkLvl := rfl
@[simp] theorem accept_dioMode (c : Command) (s : State) : (accept c s).dioMode = s.dioMode := rfl
@[simp] theorem accept_trace (c : Command) (s : State) : (accept c s).trace = s.trace := rfl
@[simp] theorem accept_params (c : Command) (s : State) : (accept c s).params = s.params := rfl
@[simp] theorem accept_inputs (c : Command) (s : State) : (accept c s).inputs = s.inputs := rfl
@[simp] theorem accept_acks (c : Command) (s : State) : (accept c s).acks = s.acks := rfl
@[simp] theorem accept_draws (c : Command) (s : State) : (accept c s).draws = s.draws := rfl
@[simp] theorem accept_resp (c : Command) (s : State) : (accept c s).resp = s.resp := rfl
@[simp] theorem accept_firstByte (c : Command) (s : State) : (accept c s).firstByte = false := rfl

/-! ### `resetBlock` (R240) -/

@[simp] theorem resetBlock_buf (s : State) : (resetBlock s).buf = Vector.replicate 32 0#16 := rfl
@[simp] theorem resetBlock_sumr (s : State) : (resetBlock s).sumr = 0#21 := rfl
@[simp] theorem resetBlock_cur (s : State) : (resetBlock s).cur = 0#5 := rfl
@[simp] theorem resetBlock_fill (s : State) : (resetBlock s).fill = 0#6 := rfl
@[simp] theorem resetBlock_avgr (s : State) : (resetBlock s).avgr = 0#16 := rfl
@[simp] theorem resetBlock_level (s : State) : (resetBlock s).level = s.params.brightRst := rfl
@[simp] theorem resetBlock_data (s : State) : (resetBlock s).data = 0#32 := rfl
@[simp] theorem resetBlock_value (s : State) : (resetBlock s).value = 0#32 := rfl
@[simp] theorem resetBlock_segcode (s : State) : (resetBlock s).segcode = 0#32 := rfl
@[simp] theorem resetBlock_snap (s : State) : (resetBlock s).snap = resetSnap := rfl
@[simp] theorem resetBlock_prog (s : State) : (resetBlock s).prog = [] := rfl
@[simp] theorem resetBlock_k (s : State) : (resetBlock s).k = 0 := rfl
@[simp] theorem resetBlock_ackok (s : State) : (resetBlock s).ackok = false := rfl
@[simp] theorem resetBlock_nack (s : State) : (resetBlock s).nack = false := rfl
@[simp] theorem resetBlock_cmderr (s : State) : (resetBlock s).cmderr = false := rfl
@[simp] theorem resetBlock_clkLvl (s : State) : (resetBlock s).clkLvl = true := rfl
@[simp] theorem resetBlock_dioMode (s : State) : (resetBlock s).dioMode = .out1 := rfl
@[simp] theorem resetBlock_trace (s : State) : (resetBlock s).trace = s.trace ++ [.idle] := rfl
@[simp] theorem resetBlock_params (s : State) : (resetBlock s).params = s.params := rfl
@[simp] theorem resetBlock_inputs (s : State) : (resetBlock s).inputs = s.inputs := rfl
@[simp] theorem resetBlock_acks (s : State) : (resetBlock s).acks = s.acks := rfl
@[simp] theorem resetBlock_draws (s : State) : (resetBlock s).draws = s.draws := rfl
@[simp] theorem resetBlock_resp (s : State) : (resetBlock s).resp = s.resp := rfl
@[simp] theorem resetBlock_firstByte (s : State) : (resetBlock s).firstByte = false := rfl

/-! ### `takeAck` (R95) -/

@[simp] theorem takeAck_buf (s : State) : (takeAck s).buf = s.buf := by
  unfold takeAck; split <;> rfl
@[simp] theorem takeAck_sumr (s : State) : (takeAck s).sumr = s.sumr := by
  unfold takeAck; split <;> rfl
@[simp] theorem takeAck_cur (s : State) : (takeAck s).cur = s.cur := by
  unfold takeAck; split <;> rfl
@[simp] theorem takeAck_fill (s : State) : (takeAck s).fill = s.fill := by
  unfold takeAck; split <;> rfl
@[simp] theorem takeAck_avgr (s : State) : (takeAck s).avgr = s.avgr := by
  unfold takeAck; split <;> rfl
@[simp] theorem takeAck_level (s : State) : (takeAck s).level = s.level := by
  unfold takeAck; split <;> rfl
@[simp] theorem takeAck_data (s : State) : (takeAck s).data = s.data := by
  unfold takeAck; split <;> rfl
@[simp] theorem takeAck_value (s : State) : (takeAck s).value = s.value := by
  unfold takeAck; split <;> rfl
@[simp] theorem takeAck_segcode (s : State) : (takeAck s).segcode = s.segcode := by
  unfold takeAck; split <;> rfl
@[simp] theorem takeAck_snap (s : State) : (takeAck s).snap = s.snap := by
  unfold takeAck; split <;> rfl
@[simp] theorem takeAck_prog (s : State) : (takeAck s).prog = s.prog := by
  unfold takeAck; split <;> rfl
@[simp] theorem takeAck_k (s : State) : (takeAck s).k = s.k := by
  unfold takeAck; split <;> rfl
@[simp] theorem takeAck_ackok (s : State) : (takeAck s).ackok = s.ackok := by
  unfold takeAck; split <;> rfl
@[simp] theorem takeAck_nack (s : State) : (takeAck s).nack = s.nack := by
  unfold takeAck; split <;> rfl
@[simp] theorem takeAck_cmderr (s : State) : (takeAck s).cmderr = s.cmderr := by
  unfold takeAck; split <;> rfl
@[simp] theorem takeAck_clkLvl (s : State) : (takeAck s).clkLvl = s.clkLvl := by
  unfold takeAck; split <;> rfl
@[simp] theorem takeAck_dioMode (s : State) : (takeAck s).dioMode = s.dioMode := by
  unfold takeAck; split <;> rfl
@[simp] theorem takeAck_trace (s : State) : (takeAck s).trace = s.trace := by
  unfold takeAck; split <;> rfl
@[simp] theorem takeAck_params (s : State) : (takeAck s).params = s.params := by
  unfold takeAck; split <;> rfl
@[simp] theorem takeAck_inputs (s : State) : (takeAck s).inputs = s.inputs := by
  unfold takeAck; split <;> rfl
@[simp] theorem takeAck_resp (s : State) : (takeAck s).resp = s.resp := by
  unfold takeAck; split <;> rfl
@[simp] theorem takeAck_firstByte (s : State) : (takeAck s).firstByte = s.firstByte := by
  unfold takeAck; split <;> rfl

/-! ### `advance` (R190) -/

@[simp] theorem advance_buf (it : Item) (rest : List Item) (s : State) : (advance it rest s).buf = s.buf := by
  unfold advance; split <;> rfl
@[simp] theorem advance_sumr (it : Item) (rest : List Item) (s : State) : (advance it rest s).sumr = s.sumr := by
  unfold advance; split <;> rfl
@[simp] theorem advance_cur (it : Item) (rest : List Item) (s : State) : (advance it rest s).cur = s.cur := by
  unfold advance; split <;> rfl
@[simp] theorem advance_fill (it : Item) (rest : List Item) (s : State) : (advance it rest s).fill = s.fill := by
  unfold advance; split <;> rfl
@[simp] theorem advance_avgr (it : Item) (rest : List Item) (s : State) : (advance it rest s).avgr = s.avgr := by
  unfold advance; split <;> rfl
@[simp] theorem advance_level (it : Item) (rest : List Item) (s : State) : (advance it rest s).level = s.level := by
  unfold advance; split <;> rfl
@[simp] theorem advance_data (it : Item) (rest : List Item) (s : State) : (advance it rest s).data = s.data := by
  unfold advance; split <;> rfl
@[simp] theorem advance_value (it : Item) (rest : List Item) (s : State) : (advance it rest s).value = s.value := by
  unfold advance; split <;> rfl
@[simp] theorem advance_segcode (it : Item) (rest : List Item) (s : State) : (advance it rest s).segcode = s.segcode := by
  unfold advance; split <;> rfl
@[simp] theorem advance_snap (it : Item) (rest : List Item) (s : State) : (advance it rest s).snap = s.snap := by
  unfold advance; split <;> rfl
@[simp] theorem advance_nack (it : Item) (rest : List Item) (s : State) : (advance it rest s).nack = s.nack := by
  unfold advance; split <;> rfl
@[simp] theorem advance_cmderr (it : Item) (rest : List Item) (s : State) : (advance it rest s).cmderr = s.cmderr := by
  unfold advance; split <;> rfl
@[simp] theorem advance_clkLvl (it : Item) (rest : List Item) (s : State) : (advance it rest s).clkLvl = s.clkLvl := by
  unfold advance; split <;> rfl
@[simp] theorem advance_dioMode (it : Item) (rest : List Item) (s : State) : (advance it rest s).dioMode = s.dioMode := by
  unfold advance; split <;> rfl
@[simp] theorem advance_trace (it : Item) (rest : List Item) (s : State) : (advance it rest s).trace = s.trace := by
  unfold advance; split <;> rfl
@[simp] theorem advance_params (it : Item) (rest : List Item) (s : State) : (advance it rest s).params = s.params := by
  unfold advance; split <;> rfl
@[simp] theorem advance_inputs (it : Item) (rest : List Item) (s : State) : (advance it rest s).inputs = s.inputs := by
  unfold advance; split <;> rfl
@[simp] theorem advance_acks (it : Item) (rest : List Item) (s : State) : (advance it rest s).acks = s.acks := by
  unfold advance; split <;> rfl
@[simp] theorem advance_draws (it : Item) (rest : List Item) (s : State) : (advance it rest s).draws = s.draws := by
  unfold advance; split <;> rfl
@[simp] theorem advance_resp (it : Item) (rest : List Item) (s : State) : (advance it rest s).resp = s.resp := by
  unfold advance; split <;> rfl

/-! ### `perform` (R195) -/

@[simp] theorem perform_buf (ev : WireEvent) (s : State) : (perform ev s).buf = s.buf := by
  cases ev <;> simp [perform]
@[simp] theorem perform_sumr (ev : WireEvent) (s : State) : (perform ev s).sumr = s.sumr := by
  cases ev <;> simp [perform]
@[simp] theorem perform_cur (ev : WireEvent) (s : State) : (perform ev s).cur = s.cur := by
  cases ev <;> simp [perform]
@[simp] theorem perform_fill (ev : WireEvent) (s : State) : (perform ev s).fill = s.fill := by
  cases ev <;> simp [perform]
@[simp] theorem perform_avgr (ev : WireEvent) (s : State) : (perform ev s).avgr = s.avgr := by
  cases ev <;> simp [perform]
@[simp] theorem perform_level (ev : WireEvent) (s : State) : (perform ev s).level = s.level := by
  cases ev <;> simp [perform]
@[simp] theorem perform_data (ev : WireEvent) (s : State) : (perform ev s).data = s.data := by
  cases ev <;> simp [perform]
@[simp] theorem perform_value (ev : WireEvent) (s : State) : (perform ev s).value = s.value := by
  cases ev <;> simp [perform]
@[simp] theorem perform_segcode (ev : WireEvent) (s : State) : (perform ev s).segcode = s.segcode := by
  cases ev <;> simp [perform]
@[simp] theorem perform_snap (ev : WireEvent) (s : State) : (perform ev s).snap = s.snap := by
  cases ev <;> simp [perform]
@[simp] theorem perform_prog (ev : WireEvent) (s : State) : (perform ev s).prog = s.prog := by
  cases ev <;> simp [perform]
@[simp] theorem perform_k (ev : WireEvent) (s : State) : (perform ev s).k = s.k := by
  cases ev <;> simp [perform]
@[simp] theorem perform_cmderr (ev : WireEvent) (s : State) : (perform ev s).cmderr = s.cmderr := by
  cases ev <;> simp [perform]
@[simp] theorem perform_params (ev : WireEvent) (s : State) : (perform ev s).params = s.params := by
  cases ev <;> simp [perform]
@[simp] theorem perform_inputs (ev : WireEvent) (s : State) : (perform ev s).inputs = s.inputs := by
  cases ev <;> simp [perform]
@[simp] theorem perform_resp (ev : WireEvent) (s : State) : (perform ev s).resp = s.resp := by
  cases ev <;> simp [perform]
@[simp] theorem perform_firstByte (ev : WireEvent) (s : State) : (perform ev s).firstByte = s.firstByte := by
  cases ev <;> simp [perform]

/-! ### `displayCommand` (R161) -/

@[simp] theorem displayCommand_buf (c : Option Command) (s : State) : (displayCommand c s).buf = s.buf := by
  unfold displayCommand; split <;> rfl
@[simp] theorem displayCommand_sumr (c : Option Command) (s : State) : (displayCommand c s).sumr = s.sumr := by
  unfold displayCommand; split <;> rfl
@[simp] theorem displayCommand_cur (c : Option Command) (s : State) : (displayCommand c s).cur = s.cur := by
  unfold displayCommand; split <;> rfl
@[simp] theorem displayCommand_fill (c : Option Command) (s : State) : (displayCommand c s).fill = s.fill := by
  unfold displayCommand; split <;> rfl
@[simp] theorem displayCommand_avgr (c : Option Command) (s : State) : (displayCommand c s).avgr = s.avgr := by
  unfold displayCommand; split <;> rfl
@[simp] theorem displayCommand_level (c : Option Command) (s : State) : (displayCommand c s).level = s.level := by
  unfold displayCommand; split <;> rfl
@[simp] theorem displayCommand_data (c : Option Command) (s : State) : (displayCommand c s).data = s.data := by
  unfold displayCommand; split <;> rfl
@[simp] theorem displayCommand_value (c : Option Command) (s : State) : (displayCommand c s).value = s.value := by
  unfold displayCommand; split <;> rfl
@[simp] theorem displayCommand_segcode (c : Option Command) (s : State) : (displayCommand c s).segcode = s.segcode := by
  unfold displayCommand; split <;> rfl
@[simp] theorem displayCommand_clkLvl (c : Option Command) (s : State) : (displayCommand c s).clkLvl = s.clkLvl := by
  unfold displayCommand; split <;> rfl
@[simp] theorem displayCommand_dioMode (c : Option Command) (s : State) : (displayCommand c s).dioMode = s.dioMode := by
  unfold displayCommand; split <;> rfl
@[simp] theorem displayCommand_trace (c : Option Command) (s : State) : (displayCommand c s).trace = s.trace := by
  unfold displayCommand; split <;> rfl
@[simp] theorem displayCommand_params (c : Option Command) (s : State) : (displayCommand c s).params = s.params := by
  unfold displayCommand; split <;> rfl
@[simp] theorem displayCommand_inputs (c : Option Command) (s : State) : (displayCommand c s).inputs = s.inputs := by
  unfold displayCommand; split <;> rfl
@[simp] theorem displayCommand_acks (c : Option Command) (s : State) : (displayCommand c s).acks = s.acks := by
  unfold displayCommand; split <;> rfl
@[simp] theorem displayCommand_draws (c : Option Command) (s : State) : (displayCommand c s).draws = s.draws := by
  unfold displayCommand; split <;> rfl
@[simp] theorem displayCommand_resp (c : Option Command) (s : State) : (displayCommand c s).resp = Response.done := by
  unfold displayCommand; split <;> rfl

end Sys2Proof.Machine
end

