-- ==== Sys2Proof/Laws/Ops.lean ====
section
/-! SUPPORT. What each shared operation can do, said once: a proof cites these and does not unfold the operation. -/

namespace Sys2Proof.Machine

/-- A display command is rejected, while BUSY or as illegal, or accepted (R161-R164). -/
theorem displayCommand_cases (c : Option Command) (s : State) :
    (s.prog ≠ [] ∧ displayCommand c s = complete (rejectCommand s))
      ∨ (s.prog = [] ∧ (∀ c', c = some c' → c'.legal = false) ∧ displayCommand c s = complete (rejectCommand s))
      ∨ (s.prog = [] ∧ ∃ c', c = some c' ∧ c'.legal = true ∧ displayCommand c s = complete (accept c' s)) := by
  by_cases hp : s.prog = []
  · have hb : s.busy = false := by simp [State.busy, hp]
    cases c with
    | none => exact .inr (.inl ⟨hp, by simp, by simp [displayCommand, commandCause, hb]⟩)
    | some c' =>
      cases hl : c'.legal with
      | true => exact .inr (.inr ⟨hp, c', rfl, hl, by simp [displayCommand, commandCause, hb, hl]⟩)
      | false =>
        refine .inr (.inl ⟨hp, fun c'' h => ?_, by simp [displayCommand, commandCause, hb, hl]⟩)
        cases h; exact hl
  · have hb : s.busy = true := by simpa [State.busy, List.isEmpty_iff] using hp
    exact .inl ⟨hp, by cases c <;> simp [displayCommand, commandCause, hb]⟩

/-- A sample event inserts a value that fits and refuses one that does not (R102, R225). -/
theorem sampleEvent_next (d : Sample) (s t : State) :
    sampleEvent d s = .next t ↔ d.toNat < 2 ^ s.params.sampleW ∧ t = insertSample d s := by
  unfold sampleEvent
  split <;> simp_all [eq_comm]

/-- The effect of each event but READ (R195). -/
theorem perform_clk (l : Bool) (s : State) :
    perform (.clk l) s = { s with clkLvl := l, trace := s.trace ++ [.clk l] } := rfl

theorem perform_dio (l : Bool) (s : State) :
    perform (.dio l) s = { s with dioMode := if l then .out1 else .out0, trace := s.trace ++ [.dio l] } := rfl

theorem perform_dioRel (s : State) :
    perform .dioRel s = { s with dioMode := .released, trace := s.trace ++ [.dioRel] } := rfl

theorem perform_wait (s : State) : perform .wait s = { s with trace := s.trace ++ [.wait] } := rfl

/-- A READ that an ACK answer serves (R95, R196). -/
theorem perform_read_ack (s : State) (r : Bool) (rs : List Bool) (h : s.acks = r :: rs) :
    perform .read s
      = { s with ackok := !r, nack := s.nack || r, acks := rs, trace := s.trace ++ [.read r] } := by
  simp [perform, readLevel, takeAck, h, ackEval, record]

/-- A READ that a free draw serves (R95, R196). -/
theorem perform_read_free (s : State) (h : s.acks = []) :
    perform .read s
      = { s with
          ackok := !Config.freeAck s.draws, nack := s.nack || Config.freeAck s.draws, draws := s.draws + 1
          trace := s.trace ++ [.read (Config.freeAck s.draws)] } := by
  simp [perform, readLevel, takeAck, h, ackEval, record]

/-- Every event appends exactly one entry to TRACE (R190). -/
theorem perform_trace (ev : WireEvent) (s : State) : ∃ e, (perform ev s).trace = s.trace ++ [e] := by
  cases ev
  case read => exact ⟨.read (readLevel s), by simp [perform]⟩
  all_goals exact ⟨_, rfl⟩

/-- All that an event can change (R195, R196). -/
theorem perform_frame (ev : WireEvent) (s : State) :
    perform ev s
      = { s with
          ackok := (perform ev s).ackok, nack := (perform ev s).nack, clkLvl := (perform ev s).clkLvl
          dioMode := (perform ev s).dioMode, trace := (perform ev s).trace, acks := (perform ev s).acks
          draws := (perform ev s).draws } := by
  cases ev
  case read => cases h : s.acks <;> simp [perform, readLevel, takeAck, h, ackEval, record]
  all_goals rfl

/-- The sequencer step: nothing with PROG empty, else one event of the head item (R190). -/
theorem seqStep_next (s t : State) :
    seqStep s = .next t ↔
      (s.prog = [] ∧ t = s)
        ∨ ∃ it rest ev, s.prog = it :: rest ∧ (events it s.ackok)[s.k]? = some ev
            ∧ t = advance it rest (perform ev s) := by
  unfold seqStep
  cases hp : s.prog with
  | nil => simp [eq_comm]
  | cons it rest =>
    cases he : (events it s.ackok)[s.k]? with
    | none => simp [he]
    | some ev => simp [he, eq_comm]

/-- The sequencer step never refuses. -/
theorem seqStep_ne_refused (s : State) (r : Refusal) : seqStep s ≠ .refused r := by
  unfold seqStep
  split
  · simp
  · split <;> simp

/-- Sending a command byte is a sequencer step where the byte is due, else a refusal (R90, R91). -/
theorem sendCommandByte_next (b : Byte) (s t : State) :
    sendCommandByte b s = .next t ↔ (s.firstByte = true ∧ s.prog.head? = some (.byte b)) ∧ seqStep s = .next t := by
  unfold sendCommandByte
  split <;> simp_all

/-- The lengths of the items' event lists (R192, R194, R197). -/
@[simp] theorem events_start_length (a : Bool) : (events .start a).length = 4 := rfl

@[simp] theorem events_stop_length (a : Bool) : (events .stop a).length = 8 := rfl

@[simp] theorem dataPhase_length (b : Byte) : (dataPhase b).length = 48 := rfl

@[simp] theorem events_byte_length (b : Byte) (a : Bool) :
    (events (.byte b) a).length = if a then 57 else 59 := by
  cases a <;> rfl

/-- A rejected port word either answers a bus error, rejects a command, steps the sequencer, or is refused. -/
theorem onReject_next (r : Reject) (s t : State) (h : onReject r s = .next t) :
    (∃ off n dir, t = raiseBusError off n dir s) ∨ t = complete (rejectCommand s) ∨ seqStep s = .next t := by
  cases r with
  | busSize off n dir => exact .inl ⟨off, n, dir, (Host.Outcome.next.inj h).symm⟩
  | busAlign off n dir => exact .inl ⟨off, n, dir, (Host.Outcome.next.inj h).symm⟩
  | illegalCommand w => exact .inr (.inl (Host.Outcome.next.inj h).symm)
  | notCommandByte b => exact .inr (.inr h)
  | outsideWindow off => cases h
  | sampleTooWide d => cases h

/-- The effects an operation can have: answer the port, store one register, insert a sample, take or reject a display
command, or step the sequencer with a command byte. -/
inductive Effect (i : Instr) (s : State) : State → Prop
  | answered (w : Word) : Effect i s (respond w s)
  | ignored : Effect i s (complete s)
  | storedLevel (l : BitVec 3) : Effect i s (complete { s with level := l })
  | storedData (v : Word) : Effect i s (complete { s with data := v })
  | storedValue (v : Word) : Effect i s (complete { s with value := v })
  | storedSegcode (v : Word) : Effect i s (complete { s with segcode := v })
  | sampled (d : Sample) (hi : i = .sample d) (hd : d.toNat < 2 ^ s.params.sampleW) : Effect i s (insertSample d s)
  | commanded (c : Option Command) (hi : onWire i = false) : Effect i s (displayCommand c s)
  | sent (b : Byte) (t : State) (hi : onWire i = true) (hf : s.firstByte = true)
      (hp : s.prog.head? = some (.byte b)) (ht : seqStep s = .next t) : Effect i s t

/-- All that an operation can do when it answers a next state. -/
theorem exec_effect (i : Instr) (s t : State) (h : exec i s = .next t) : Effect i s t := by
  cases i <;> simp only [exec] at h
  case sample d =>
    obtain ⟨hd, rfl⟩ := (sampleEvent_next d s t).1 h
    exact .sampled d rfl hd
  case tmAuto | tmFixed | tmAddr | tmDisp =>
    obtain ⟨⟨hf, hp⟩, ht⟩ := (sendCommandByte_next _ s t).1 h
    exact .sent _ t rfl hf hp ht
  case clear | renderDigits | renderNumber | display | writeFixed | wrCmd => cases h; exact .commanded _ rfl
  case wrBright v => cases h; exact .storedLevel _
  case wrData v => cases h; exact .storedData v
  case wrValue v => cases h; exact .storedValue v
  case wrSegq v => cases h; exact .storedSegcode v
  case wrAvg | wrStatus | wrSum => cases h; exact .ignored
  all_goals (cases h; exact .answered _)

/-- A host access that the decoder rejects is one of three kinds (R61, R68). -/
theorem decodeBus_rejected (a : Access) (r : Reject) (h : decodeBus a = .rejected r) :
    (∃ off n dir, r = .busSize off n dir) ∨ (∃ off n dir, r = .busAlign off n dir) ∨ ∃ off, r = .outsideWindow off := by
  unfold decodeBus Access.rejected at h
  split at h
  · rename_i r' hr
    cases h
    split at hr
    · cases hr; exact .inr (.inr ⟨_, rfl⟩)
    · split at hr
      · cases hr; exact .inl ⟨_, _, _, rfl⟩
      · split at hr
        · cases hr; exact .inr (.inl ⟨_, _, _, rfl⟩)
        · cases hr
  · split at h
    · cases h
    · cases h; exact .inr (.inr ⟨_, rfl⟩)

/-- A chain of tests answers at its first test or in its rest. -/
theorem of_ite_some {α : Type} {c : Prop} [Decidable c] {a i : α} {r : Option α}
    (h : (if c then some a else r) = some i) : (c ∧ a = i) ∨ r = some i := by
  by_cases hc : c
  · rw [if_pos hc] at h; exact .inl ⟨hc, Option.some.inj h⟩
  · rw [if_neg hc] at h; exact .inr h

/-- A descriptor with W = 0 names a host read, which answers the port and does nothing else (R62). -/
theorem decodeDescriptor_read (desc : BitVec 9) (data : Word) (i : Instr) (hw : desc.getLsbD 8 = false)
    (h : decodeDescriptor desc data = some i) (s : State) : ∃ w, exec i s = .next (respond w s) := by
  unfold decodeDescriptor at h
  iterate 16
    rcases of_ite_some h with ⟨hd, rfl⟩ | h
    · first
        | exact ⟨_, rfl⟩
        | (subst hd; exact absurd hw (by decide))
  cases h

/-- A host read that the decoder accepts answers the port and does nothing else (R62). -/
theorem decodeBus_read (a : Access) (i : Instr) (hd : a.dir = .read) (h : decodeBus a = .instr i) (s : State) :
    ∃ w, exec i s = .next (respond w s) := by
  have hw : a.desc.getLsbD 8 = false := by
    unfold Access.dir at hd
    split at hd
    · cases hd
    · simp_all
  unfold decodeBus at h
  split at h
  · cases h
  · split at h
    · rename_i hi
      cases h
      exact decodeDescriptor_read a.desc a.data _ hw hi s
    · cases h

/-- What happens while reset is asserted touches only the receiver's answers and the port's (R241). -/
theorem underReset_next (es : List Event) (s t : State) (h : underReset es s = .next t) :
    ∃ (acks : List Bool) (resp : Response), t = { s with acks := acks, resp := resp } := by
  induction es generalizing s with
  | nil => cases h; exact ⟨t.acks, t.resp, rfl⟩
  | cons e es ih =>
    cases e with
    | sample d =>
      simp only [underReset] at h
      split at h
      · exact ih s h
      · cases h
    | seq => exact ih s h
    | seqAll => exact ih s h
    | ack r =>
      obtain ⟨a, r, rfl⟩ := ih (queueAck r s) h
      exact ⟨a, r, rfl⟩
    | host a =>
      simp only [underReset] at h
      split at h
      · rename_i i hi
        split at h
        · obtain ⟨a, r, rfl⟩ := ih (complete s) h
          exact ⟨a, r, rfl⟩
        · rename_i hdir
          obtain ⟨w, hw⟩ := decodeBus_read a i hdir hi s
          rw [hw] at h
          obtain ⟨a, r, rfl⟩ := ih (respond w s) h
          exact ⟨a, r, rfl⟩
      · rename_i r hr
        obtain ⟨off, n, dir, rfl⟩ | ⟨off, n, dir, rfl⟩ | ⟨off, rfl⟩ := decodeBus_rejected a r hr
        · obtain ⟨a, r, rfl⟩ := ih (raiseBusError off n dir s) h
          exact ⟨a, r, rfl⟩
        · obtain ⟨a, r, rfl⟩ := ih (raiseBusError off n dir s) h
          exact ⟨a, r, rfl⟩
        · cases h

end Sys2Proof.Machine
end

