-- ==== Sys2Proof/Laws/PerInstr.lean ====
section
/-! SUPPORT. Facts about every operation as syntax, one lemma per constructor: its encoding lies in its own row of the
opcode table (R82, R83, R85, R90). -/

namespace Sys2Proof.Laws

/-- The four formats of the opcode table (R80). -/
inductive Format where
  | bus
  | smp
  | cmd
  | tmcmd
  deriving DecidableEq, Repr

/-- A row of spec/opcode_table.json: its format, match and mask. -/
structure Row where
  format : Format
  pattern : Nat
  mask : Nat
  deriving DecidableEq, Repr

/-- The row of an operation, as the table has it. -/
def tableRow : Instr → Row
  | .rdAvg => ⟨.bus, 0x000, 0x1FF⟩
  | .wrAvg _ => ⟨.bus, 0x100, 0x1FF⟩
  | .rdStatus => ⟨.bus, 0x004, 0x1FF⟩
  | .wrStatus _ => ⟨.bus, 0x104, 0x1FF⟩
  | .rdBright => ⟨.bus, 0x008, 0x1FF⟩
  | .wrBright _ => ⟨.bus, 0x108, 0x1FF⟩
  | .rdCmd => ⟨.bus, 0x00C, 0x1FF⟩
  | .wrCmd _ => ⟨.bus, 0x10C, 0x1FF⟩
  | .rdData => ⟨.bus, 0x010, 0x1FF⟩
  | .wrData _ => ⟨.bus, 0x110, 0x1FF⟩
  | .rdValue => ⟨.bus, 0x014, 0x1FF⟩
  | .wrValue _ => ⟨.bus, 0x114, 0x1FF⟩
  | .rdSegq => ⟨.bus, 0x018, 0x1FF⟩
  | .wrSegq _ => ⟨.bus, 0x118, 0x1FF⟩
  | .rdSum => ⟨.bus, 0x01C, 0x1FF⟩
  | .wrSum _ => ⟨.bus, 0x11C, 0x1FF⟩
  | .sample _ => ⟨.smp, 0x0, 0x0⟩
  | .clear => ⟨.cmd, 0x00000001, 0xFFFFFFFF⟩
  | .renderDigits => ⟨.cmd, 0x00000002, 0xFFFFFFFF⟩
  | .renderNumber _ => ⟨.cmd, 0x00000003, 0xFFFFFFEF⟩
  | .display _ _ => ⟨.cmd, 0x00000004, 0xFFFFCCFF⟩
  | .writeFixed _ => ⟨.cmd, 0x00000005, 0xFFFFFCFF⟩
  | .tmAuto => ⟨.tmcmd, 0x40, 0xFF⟩
  | .tmFixed => ⟨.tmcmd, 0x44, 0xFF⟩
  | .tmAddr _ => ⟨.tmcmd, 0xC0, 0xFC⟩
  | .tmDisp _ => ⟨.tmcmd, 0x88, 0xF8⟩

/-- The format of a port word and the number its row is matched against. -/
def portBits : PortWord → Format × Nat
  | .bus a => (.bus, a.desc.toNat)
  | .smp d => (.smp, d)
  | .cmd w => (.cmd, w.toNat)
  | .tm b => (.tmcmd, b.toNat)

/-- A port word lies in a row when its format is the row's and its bits under the mask are the row's match. -/
def Row.holds (r : Row) (pw : PortWord) : Prop :=
  (portBits pw).1 = r.format ∧ (portBits pw).2 &&& r.mask = r.pattern

namespace EncodesToItsRow

/-- The encoding of an operation lies in the operation's row of the opcode table. -/
def Statement (i : Instr) : Prop := (tableRow i).holds (encode i)

theorem rdAvg : Statement .rdAvg := ⟨rfl, rfl⟩
theorem wrAvg (v : Word) : Statement (.wrAvg v) :=
  ⟨rfl, by show (1#1 ++ 0x00#8 : BitVec 9).toNat &&& 0x1FF = 0x100; decide⟩
theorem rdStatus : Statement .rdStatus := ⟨rfl, rfl⟩
theorem wrStatus (v : Word) : Statement (.wrStatus v) :=
  ⟨rfl, by show (1#1 ++ 0x04#8 : BitVec 9).toNat &&& 0x1FF = 0x104; decide⟩
theorem rdBright : Statement .rdBright := ⟨rfl, rfl⟩
theorem wrBright (v : Word) : Statement (.wrBright v) :=
  ⟨rfl, by show (1#1 ++ 0x08#8 : BitVec 9).toNat &&& 0x1FF = 0x108; decide⟩
theorem rdCmd : Statement .rdCmd := ⟨rfl, rfl⟩
theorem wrCmd (w : Word) : Statement (.wrCmd w) :=
  ⟨rfl, by show (1#1 ++ 0x0C#8 : BitVec 9).toNat &&& 0x1FF = 0x10C; decide⟩
theorem rdData : Statement .rdData := ⟨rfl, rfl⟩
theorem wrData (v : Word) : Statement (.wrData v) :=
  ⟨rfl, by show (1#1 ++ 0x10#8 : BitVec 9).toNat &&& 0x1FF = 0x110; decide⟩
theorem rdValue : Statement .rdValue := ⟨rfl, rfl⟩
theorem wrValue (v : Word) : Statement (.wrValue v) :=
  ⟨rfl, by show (1#1 ++ 0x14#8 : BitVec 9).toNat &&& 0x1FF = 0x114; decide⟩
theorem rdSegq : Statement .rdSegq := ⟨rfl, rfl⟩
theorem wrSegq (v : Word) : Statement (.wrSegq v) :=
  ⟨rfl, by show (1#1 ++ 0x18#8 : BitVec 9).toNat &&& 0x1FF = 0x118; decide⟩
theorem rdSum : Statement .rdSum := ⟨rfl, rfl⟩
theorem wrSum (v : Word) : Statement (.wrSum v) :=
  ⟨rfl, by show (1#1 ++ 0x1C#8 : BitVec 9).toNat &&& 0x1FF = 0x11C; decide⟩
theorem sample (d : Sample) : Statement (.sample d) := ⟨rfl, Nat.and_zero _⟩
theorem clear : Statement .clear := ⟨rfl, rfl⟩
theorem renderDigits : Statement .renderDigits := ⟨rfl, rfl⟩
theorem renderNumber (lz : Bool) : Statement (.renderNumber lz) := ⟨rfl, by cases lz <;> rfl⟩

theorem display (pos lenm1 : BitVec 2) : Statement (.display pos lenm1) := by
  refine ⟨rfl, ?_⟩
  have h : ∀ pos lenm1 : BitVec 2,
      (portBits (encode (.display pos lenm1))).2 &&& 0xFFFFCCFF = 0x00000004 := by decide
  exact h pos lenm1

theorem writeFixed (pos : BitVec 2) : Statement (.writeFixed pos) := by
  refine ⟨rfl, ?_⟩
  have h : ∀ pos : BitVec 2, (portBits (encode (.writeFixed pos))).2 &&& 0xFFFFFCFF = 0x00000005 := by decide
  exact h pos

theorem tmAuto : Statement .tmAuto := ⟨rfl, rfl⟩
theorem tmFixed : Statement .tmFixed := ⟨rfl, rfl⟩

theorem tmAddr (pos : BitVec 2) : Statement (.tmAddr pos) := by
  refine ⟨rfl, ?_⟩
  have h : ∀ pos : BitVec 2, (portBits (encode (.tmAddr pos))).2 &&& 0xFC = 0xC0 := by decide
  exact h pos

theorem tmDisp (level : BitVec 3) : Statement (.tmDisp level) := by
  refine ⟨rfl, ?_⟩
  have h : ∀ level : BitVec 3, (portBits (encode (.tmDisp level))).2 &&& 0xF8 = 0x88 := by decide
  exact h level

end EncodesToItsRow

end Sys2Proof.Laws
end

