-- ==== Sys2Proof/Laws/Step.lean ====
section
/-! SUPPORT. What one step can do, said once (R16, R70). -/

namespace Sys2Proof.Machine

/-- The kinds of step: an operation, a sequencer event, a bus error, a queued ack answer, a reset, or nothing. `s` is the
state before, its schedule as it stands after the step's entry is used in `rest`. -/
inductive StepKind (s : State) (rest : List Input) : State → Prop
  | ran (i : Instr) (t : State) (hi : onWire i = false) (h : exec i { s with inputs := rest } = .next t) :
      StepKind s rest t
  | sequenced (t : State) (h : seqStep { s with inputs := rest } = .next t) : StepKind s rest t
  | busError (off : Byte) (n : Nat) (dir : Dir) : StepKind s rest (raiseBusError off n dir { s with inputs := rest })
  | acked (r : Bool) : StepKind s rest (queueAck r { s with inputs := rest })
  | reset (during : List Event) (t : State) (hi : s.inputs = .reset during :: rest)
      (h : underReset during (resetBlock { s with inputs := rest }) = .next t) : StepKind s rest t
  | idled : StepKind s rest { s with inputs := rest }

/-- A host access never names a command byte (R92). -/
theorem decodeBus_not_onWire (a : Access) (i : Instr) (h : decodeBus a = .instr i) : onWire i = false := by
  unfold decodeBus at h
  split at h
  · cases h
  · split at h
    · rename_i hi
      cases h
      unfold decodeDescriptor at hi
      iterate 16
        rcases of_ite_some hi with ⟨-, rfl⟩ | hi
        · rfl
      cases hi
    · cases h

/-- The byte a command-byte operation sends (R177-R180). -/
def sentByte : Instr → Option Byte
  | .tmAuto => some Config.cmdAuto
  | .tmFixed => some Config.cmdFixed
  | .tmAddr pos => some (addrByte pos)
  | .tmDisp level => some (dispByte level)
  | _ => none

/-- A command-byte operation is the sending of its byte. -/
theorem exec_sentByte (i : Instr) (b : Byte) (h : sentByte i = some b) (s : State) :
    exec i s = sendCommandByte b s := by
  cases i <;> cases h <;> rfl

/-- The byte an operation sends is the byte it was decoded from (R90). -/
theorem sentByte_decodeTm : ∀ b : Byte, (decodeTm b).all (fun i => decide (sentByte i = some b)) = true := by
  decide

/-- What the sequencer's turn does once the step has decoded it: a sequencer step, whether the item is a command byte,
a data byte, a START or a STOP. -/
theorem step_of_sequencerTurn (s s0 : State) (h : fetch s0 = sequencerTurn s) :
    step s0 = seqStep s := by
  unfold step
  rw [h]
  cases hp : s.prog with
  | nil => simp [sequencerTurn, seqStep, hp]
  | cons it rest =>
    cases it with
    | start => simp [sequencerTurn, hp]
    | stop => simp [sequencerTurn, hp]
    | byte b =>
      cases hf : s.firstByte with
      | false => simp [sequencerTurn, hp, hf]
      | true =>
        simp only [sequencerTurn, hp, hf, if_true, decode]
        cases hd : decodeTm b with
        | none => rfl
        | some i =>
          have hb := sentByte_decodeTm b
          rw [hd] at hb
          have he := exec_sentByte i b (of_decide_eq_true hb) s
          simp only [he, sendCommandByte, hf, hp, List.head?_cons, and_self, if_true]

/-- The poll of WAITIDLE is a read of STATUS (R95). -/
theorem decodeBus_readStatus : decodeBus (readAccess 0x04#8) = .instr .rdStatus := by decide

/-- Bit 0 of the STATUS word is BUSY (R37), the bit that WAITIDLE polls. -/
@[simp] theorem statusWord_getLsbD_zero (s : State) : s.statusWord.getLsbD 0 = s.busy := by
  have h : ∀ (x : BitVec 31) (b : Bool), (x ++ BitVec.ofBool b).getLsbD 0 = b := by
    intro x b
    rw [BitVec.getLsbD_append]
    cases b <;> rfl
  exact h (0#11 ++ s.cur ++ 0#2 ++ s.fill ++ 0#5 ++ BitVec.ofBool s.cmderr ++ BitVec.ofBool s.nack) s.busy

/-- The poll of WAITIDLE runs RD.STATUS on the state whose schedule leaves the loop or goes into its next round (R95). -/
theorem step_poll (s : State) (w : Wait) (rest : List Input) (h : s.inputs = .poll w :: rest) :
    step s = exec .rdStatus { s with inputs := if s.busy then w.nextRound ++ rest else rest } := by
  simp only [step, fetch, h, decode, decodeBus_readStatus, statusWord_getLsbD_zero]

/-- A run whose first step goes on. -/
theorem run_of_step (n : Nat) (s t : State) (h : step s = .next t) :
    Host.Core.run core (n + 1) s = Host.Core.run core n t := by
  have hc : core.step s = .next t := h
  simp only [Host.Core.run, hc]

/-- Everything one step can do. -/
theorem step_kind (s t : State) (h : step s = .next t) : ∃ rest, StepKind s rest t := by
  match hin : s.inputs with
  | [] =>
    rw [step_of_sequencerTurn s s (by simp [fetch, hin])] at h
    exact ⟨[], .sequenced t (by rw [← hin]; exact h)⟩
  | .event (.sample d) :: rest =>
    refine ⟨rest, ?_⟩
    simp only [step, fetch, hin, decode, decodeSmp] at h
    by_cases hd : d < 2 ^ s.params.sampleW
    · rw [if_pos hd] at h
      exact .ran _ t rfl h
    · rw [if_neg hd] at h
      cases h
  | .event (.host a) :: rest =>
    refine ⟨rest, ?_⟩
    simp only [step, fetch, hin, decode] at h
    cases hd : decodeBus a with
    | instr i =>
      rw [hd] at h
      exact .ran i t (decodeBus_not_onWire a i hd) h
    | rejected r =>
      rw [hd] at h
      obtain ⟨off, n, dir, rfl⟩ | ⟨off, n, dir, rfl⟩ | ⟨off, rfl⟩ := decodeBus_rejected a r hd
      · cases h; exact .busError off n dir
      · cases h; exact .busError off n dir
      · cases h
  | .event .seq :: rest =>
    rw [step_of_sequencerTurn { s with inputs := rest } s (by simp [fetch, hin])] at h
    exact ⟨rest, .sequenced t h⟩
  | .event .seqAll :: rest =>
    by_cases hp : s.prog = []
    · have hf : fetch s = .idle { s with inputs := rest } := by simp only [fetch, hin, if_pos hp]
      rw [step, hf] at h
      cases h
      exact ⟨rest, .idled⟩
    · rw [step_of_sequencerTurn s s (by simp [fetch, hin, hp])] at h
      exact ⟨s.inputs, .sequenced t h⟩
  | .event (.ack r) :: rest =>
    simp only [step, fetch, hin] at h
    cases h
    exact ⟨rest, .acked r⟩
  | .reset during :: rest =>
    simp only [step, fetch, hin] at h
    exact ⟨rest, .reset during t hin h⟩
  | .poll w :: rest =>
    simp only [step, fetch, hin, decode, decodeBus_readStatus] at h
    exact ⟨_, .ran .rdStatus t rfl h⟩

end Sys2Proof.Machine
end

