-- ==== Sys2Proof/Tests/Slice0.lean ====
section
/-! SUPPORT. Tests of the model against words and results written out from the spec, and a witness for the hypotheses of
each statement that has them. -/

namespace Sys2Proof.Tests

open Sys2Proof Sys2Proof.Machine

/-! ## Well-formedness: an ill-formed term for each check -/

/-- V-DEC-14: DISPLAY at cell 3 with two cells. -/
theorem test_wf_refuses_display_past_cell_3 : (Instr.display 3#2 1#2).wf Params.standard = false := by decide

/-- V-SRC-10: 4096 does not fit a 12-bit converter. -/
theorem test_wf_refuses_wide_sample :
    (Instr.sample 4096#16).wf { Params.standard with sampleWm1 := 11 } = false := by decide

/-! ## Decoding: a word for every constructor, written out from R82, R85 and R90 -/

theorem test_decode_rdAvg : decodeTableWord 16 0b000000000 = some .rdAvg := by decide
theorem test_decode_wrAvg : decodeTableWord 16 0b100000000 = some (.wrAvg 0#32) := by decide
theorem test_decode_rdStatus : decodeTableWord 16 0b000000100 = some .rdStatus := by decide
theorem test_decode_wrStatus : decodeTableWord 16 0b100000100 = some (.wrStatus 0#32) := by decide
theorem test_decode_rdBright : decodeTableWord 16 0b000001000 = some .rdBright := by decide
theorem test_decode_wrBright : decodeTableWord 16 0b100001000 = some (.wrBright 0#32) := by decide
theorem test_decode_rdCmd : decodeTableWord 16 0b000001100 = some .rdCmd := by decide
theorem test_decode_wrCmd : decodeTableWord 16 0b100001100 = some (.wrCmd 0#32) := by decide
theorem test_decode_rdData : decodeTableWord 16 0b000010000 = some .rdData := by decide
theorem test_decode_wrData : decodeTableWord 16 0b100010000 = some (.wrData 0#32) := by decide
theorem test_decode_rdValue : decodeTableWord 16 0b000010100 = some .rdValue := by decide
theorem test_decode_wrValue : decodeTableWord 16 0b100010100 = some (.wrValue 0#32) := by decide
theorem test_decode_rdSegq : decodeTableWord 16 0b000011000 = some .rdSegq := by decide
theorem test_decode_wrSegq : decodeTableWord 16 0b100011000 = some (.wrSegq 0#32) := by decide
theorem test_decode_rdSum : decodeTableWord 16 0b000011100 = some .rdSum := by decide
theorem test_decode_wrSum : decodeTableWord 16 0b100011100 = some (.wrSum 0#32) := by decide
theorem test_decode_sample : decode Params.standard (.smp 300) = .instr (.sample 300#16) := by decide
theorem test_decode_sample_table : (decodeTableWord 0 0, decodeTableWord 8 0) = (some (.sample 0#16), some (.sample 0#16)) := by
  decide
theorem test_decode_clear : decodeTableWord 32 0b00001 = some .clear := by decide
theorem test_decode_renderDigits : decodeTableWord 32 0b00010 = some .renderDigits := by decide
theorem test_decode_renderNumber : decodeTableWord 32 0b10011 = some (.renderNumber true) := by decide
theorem test_decode_display : decodeTableWord 32 0b01001000000100 = some (.display 2#2 1#2) := by decide
theorem test_decode_writeFixed : decodeTableWord 32 0b01100000101 = some (.writeFixed 3#2) := by decide
theorem test_decode_tmAuto : decodeTableWord 8 0b01000000 = some .tmAuto := by decide
theorem test_decode_tmFixed : decodeTableWord 8 0b01000100 = some .tmFixed := by decide
theorem test_decode_tmAddr : decodeTableWord 8 0b11000010 = some (.tmAddr 2#2) := by decide
theorem test_decode_tmDisp : decodeTableWord 8 0b10001101 = some (.tmDisp 5#3) := by decide

/-- The write data of a bus access reaches the operation (R81). -/
theorem test_decode_wrData_data :
    decode Params.standard (.bus ⟨0b100010000#9, 4, 0x6D4F5B06#32⟩) = .instr (.wrData 0x6D4F5B06#32) := by decide

/-- V-DEC-1, 6, 16, 17, 20, 21, 22, 23, 24, 25, 26: the illegal words. -/
theorem test_decodeCmd_illegal :
    [0x00000000#32, 0x00000011#32, 0x00003104#32, 0x00000014#32, 0x00001005#32, 0x00000006#32, 0x0000000F#32,
      0x00000021#32, 0x00000401#32, 0x00000101#32, 0x00004003#32, 0x80000001#32, 0xFFFFFFFF#32].map decodeCmd
      = List.replicate 13 none := by decide

/-- V-TM-5: bytes that are no command bytes. -/
theorem test_decodeTm_none : [0x80#8, 0xC4#8, 0x41#8, 0x00#8].map decodeTm = List.replicate 4 none := by decide

/-! ## One step on a small state -/

/-- The state after `step`, the state itself where it stops. -/
def next (s : State) : State :=
  match step s with
  | .next t => t
  | .fault _ => s
  | .refused _ => s

/-- The reset state with a host access to come. -/
def hostState (a : Access) : State := { State.reset with inputs := [.event (.host a)] }

/-- An idle state with operands for the display commands (V-CMD-5, V-CMD-6: DATA 0x6D4F5B06). -/
def dataState : State := { State.reset with data := 0x6D4F5B06#32 }

/-- A sequencer state at event `k` of the head item of `prog`, the schedule empty. -/
def wireState (prog : List Item) (k : Nat) : State := { State.reset with prog := prog, k := k, firstByte := true }

/-- `s` with the sequencer's turn given by a SEQ entry, more of the schedule behind it. -/
def seqNext (s : State) : State := { s with inputs := [.event .seq, .event (.sample 7)] }

/-- The three ways the sequencer has the turn, for a state that is busy with nothing scheduled. -/
theorem sequencerMoves_each (s : State) (hi : s.inputs = []) (hp : s.prog ≠ []) :
    SequencerMoves s s ∧ SequencerMoves (seqNext s) { s with inputs := [.event (.sample 7)] }
      ∧ SequencerMoves { s with inputs := [.event .seqAll] } { s with inputs := [.event .seqAll] } :=
  ⟨.inl ⟨hi, rfl⟩, .inr (.inl ⟨_, rfl, rfl⟩), .inr (.inr ⟨_, rfl, hp, rfl⟩)⟩

/-- V-SRC-8, V-REN-5, V-REN-8: rendered cells. -/
theorem test_renderCells :
    (renderCells Params.standard 10000 false, renderCells Params.standard (-5) true,
        renderCells Params.standard 10 false)
      = ([0x3F#8, 0x1C#8, 0x79#8, 0x50#8], [0x40#8, 0x3F#8, 0x3F#8, 0x6D#8], [0x00#8, 0x00#8, 0x06#8, 0x3F#8]) := by
  decide

/-- V-AVG-4: 10, 20 and then 25 make the mean 55 div 3. -/
theorem test_sample_truncates :
    (let s := { State.reset with
        buf := (State.reset.buf.set 0 10#16).set 1 20#16, sumr := 30#21, cur := 2#5, fill := 2#6, avgr := 15#16
        inputs := [.event (.sample 25)] };
      ((next s).avgr, (next s).sumr, (next s).statusWord)) = (18#16, 55#21, 0x00030300#32) := by decide

/-- V-AVG-8: the 33rd sample evicts the first. -/
theorem test_sample_evicts :
    (let s := { State.reset with
        buf := Vector.ofFn fun i => BitVec.ofNat 16 (i.val + 1), sumr := 528#21, cur := 0#5, fill := 32#6
        avgr := 16#16, inputs := [.event (.sample 33)] };
      ((next s).avgr, (next s).sumr, (next s).statusWord)) = (17#16, 560#21, 0x00012000#32) := by decide

/-- V-RST-1: BRIGHT reads 7 after reset. -/
theorem test_rdBright_after_reset : (next (hostState ⟨0x008#9, 4, 0#32⟩)).resp = .data 7#32 := by decide

/-- V-BR-4: the word of -1 clamps to 7. -/
theorem test_wrBright_clamps_unsigned :
    (next { hostState ⟨0x108#9, 4, 0xFFFFFFFF#32⟩ with level := 2#3 }).level = 7#3 := by decide

/-- V-SEG-2, V-SEG-6: the whole signed word is the code. -/
theorem test_rdSegq :
    ([0xFFFFFFFF#32, 0x00000100#32, 0x00000007#32].map fun c =>
      (next { hostState ⟨0x018#9, 4, 0#32⟩ with segcode := c }).resp)
      = [.data 0x40#32, .data 0#32, .data 0x07#32] := by decide

/-- V-CMD-5: DISPLAY(2, 2) latches lanes 2 and 3 behind the address byte 0xC2. -/
theorem test_display_program :
    (next { dataState with inputs := [.event (.host ⟨0x10C#9, 4, 0x00001204#32⟩)] }).prog
      = [.start, .byte 0x40#8, .stop, .start, .byte 0xC2#8, .byte 0x4F#8, .byte 0x6D#8, .stop, .start, .byte 0x8F#8,
          .stop] := by decide

/-- V-CMD-6: WRITE_FIXED(1) at LEVEL 0. -/
theorem test_writeFixed_program :
    (next { dataState with level := 0#3, inputs := [.event (.host ⟨0x10C#9, 4, 0x00000105#32⟩)] }).prog
      = [.start, .byte 0x44#8, .stop, .start, .byte 0xC1#8, .byte 0x5B#8, .stop, .start, .byte 0x88#8, .stop] := by
  decide

/-- V-CMD-13: a CMD write while BUSY; STATUS is BUSY and CMDERR. -/
theorem test_command_while_busy :
    (next { wireState [.byte 0x40#8, .stop] 0 with inputs := [.event (.host ⟨0x10C#9, 4, 2#32⟩)] }).statusWord
      = 0x00000005#32 := by decide

/-- V-BUS-3: a narrow CMD write is a bus error and starts nothing. -/
theorem test_narrow_write_is_bus_error :
    (next (hostState ⟨0x10C#9, 2, 1#32⟩)) = { State.reset with resp := .busError 0x0C#8 2 .write } := by decide

/-- V-WIRE-3: the lengths and the bit 6 of BYTE(0x40). -/
theorem test_byte_events :
    ((events (.byte 0x40#8) true).length, (events (.byte 0x40#8) false).length, (events (.byte 0x40#8) true)[38]?,
        (events (.byte 0x40#8) true)[44]?, (events (.byte 0x40#8) false)[54]?)
      = (57, 59, some (.dio true), some (.dio false), some (.dio false)) := by decide

/-- V-WIRE-3: a READ of 1 sets NACK and a READ of 0 the ack. -/
theorem test_ack_read :
    (let s := wireState [.byte 0x40#8, .stop] 53;
      ((next { s with acks := [true] }).nack, (next { s with acks := [false] }).ackok)) = (true, true) := by decide

/-- R225: a sample that does not fit 12 bits is refused while reset is asserted too. -/
theorem test_reset_refuses_wide_sample :
    step { State.resetWith { Params.standard with sampleWm1 := 11 } with
        inputs := [.reset [.sample 4095, .sample 4096]] } = .refused .sampleTooWide := by rfl

/-- R94: a SEQ entry in a longer schedule sends one event of a START. -/
theorem test_seq_entry_steps_start :
    (next (seqNext (wireState [.start, .byte 0x40#8, .stop] 0)))
      = { wireState [.start, .byte 0x40#8, .stop] 1 with
          dioMode := .out0, trace := [.idle, .dio false], inputs := [.event (.sample 7)] } := by decide

/-- R95: a poll that reads BUSY = 1 goes into the next round, and one that reads BUSY = 0 leaves the loop. -/
theorem test_poll :
    (let w : Wait := ⟨[[.seq]], true⟩;
      ((next { wireState [.stop] 0 with inputs := [.poll w] }).inputs,
        (next { wireState [.stop] 0 with inputs := [.poll w] }).resp, (next { State.reset with inputs := [.poll w] }).inputs))
      = ([.event .seq, .poll ⟨[], true⟩], .data 1#32, []) := by decide

/-- R95: `SHOW -5`, a poll in which the sequencer has not moved, then a fair scheduler. -/
theorem test_assemble_show :
    assemble [.line (.smp 10), .pseudo (.showValue (-5)) ⟨[[]], true⟩]
      = some [.event (.sample 10), .event (.host ⟨0x114#9, 4, 0xFFFFFFFB#32⟩), .event (.host ⟨0x10C#9, 4, 3#32⟩),
          .poll ⟨[], true⟩] := by decide

/-- P5: reset in the middle of a command appends IDLE and idles the lines. -/
theorem test_reset_mid_command :
    (next { wireState [.byte 0x40#8, .stop] 6 with dioMode := .out0, inputs := [.reset []] })
      = { State.reset with trace := [.idle, .idle] } := by decide

/-! ## Witnesses: for each statement with hypotheses, states and operands that meet them -/

/-- A state whose sequencer is about to begin CLEAR. -/
def clearing : State := acceptedWith 0x40#8 0 [0#8, 0#8, 0#8, 0#8] State.reset

/-- A 12-bit implementation. -/
def narrow : State := State.resetWith { Params.standard with sampleWm1 := 11 }

theorem witness_HostReadsAnswerTheRegister :
    (0x1C#8, Instr.rdSum, dataState.sumr.setWidth 32) ∈
      [ (0x00#8, Instr.rdAvg, dataState.avgr.setWidth 32),
        (0x04#8, Instr.rdStatus, dataState.statusWord),
        (0x08#8, Instr.rdBright, dataState.level.setWidth 32),
        (0x0C#8, Instr.rdCmd, 0#32),
        (0x10#8, Instr.rdData, dataState.data),
        (0x14#8, Instr.rdValue, dataState.value),
        (0x18#8, Instr.rdSegq, (digitToSegments dataState.params dataState.segcode.toInt).setWidth 32),
        (0x1C#8, Instr.rdSum, dataState.sumr.setWidth 32) ] := by simp

theorem witness_SegqReadLooksUpTheWholeCode :
    (9#32).toNat = (9 : Fin 10).val ∧ 10 ≤ (10#32).toNat ∧ (10#32) ≠ 0xFFFFFFFF#32
      ∧ 10 ≤ (0xFFFFFFFE#32).toNat ∧ (0xFFFFFFFE#32) ≠ 0xFFFFFFFF#32 := by decide

theorem witness_BusErrorChangesNothingElse :
    (0x01F#9).toNat % 256 < 32 ∧ (0x01F#9).toNat % 4 ≠ 0 ∧ (0x11C#9).toNat % 256 < 32 ∧ (0x11C#9).toNat % 4 = 0 := by
  decide

theorem witness_AccessOutsideTheWindowIsRefused :
    32 ≤ (0x020#9).toNat % 256 ∧ 32 ≤ (0x1FF#9).toNat % 256 ∧ portsAccept narrow.params [.sample 4095] :=
  ⟨by decide, by decide, by simp, fun d hd => by simp at hd; subst hd; decide⟩

theorem witness_SampleInsertsAndPublishes :
    AvgInv narrow ∧ (4095#16).toNat < 2 ^ narrow.params.sampleW ∧ (0#16).toNat < 2 ^ narrow.params.sampleW := by decide

theorem witness_WideSampleIsRefused :
    2 ^ narrow.params.sampleW ≤ 4096 ∧ 2 ^ narrow.params.sampleW ≤ (4096#16).toNat
      ∧ portsAccept narrow.params [.sample 4095] :=
  ⟨by decide, by decide, by simp, fun d hd => by simp at hd; subst hd; decide⟩

theorem witness_StepKeepsAveragerInvariant :
    AvgInv { narrow with inputs := [.event (.sample 4095)] }
      ∧ step { narrow with inputs := [.event (.sample 4095)] } = .next (insertSample 4095#16 narrow) :=
  ⟨by decide, by rfl⟩

theorem witness_AverageIsTheMeanOfTheWindow : ∀ d ∈ [0, 4095], d < 2 ^ narrow.params.sampleW := by decide

theorem witness_OnlySampleAndResetWriteTheAverager :
    step { State.reset with inputs := [.event (.ack true)] } = .next (queueAck true State.reset)
      ∧ (∀ d rest, [Input.event (.ack true)] ≠ .event (.sample d) :: rest)
      ∧ (∀ ds rest, [Input.event (.ack true)] ≠ .reset ds :: rest) :=
  ⟨rfl, fun _ _ h => by simp at h, fun _ _ h => by simp at h⟩

theorem witness_AverageReadIsIdempotent :
    (∀ x ∈ [Input.poll ⟨[[.seq]], true⟩, .event .seq], x.writesAverager = false)
      ∧ Host.Core.run core 2 { State.reset with inputs := [.poll ⟨[[.seq]], true⟩, .event .seq] }
        = .next { State.reset with resp := .data 0#32 } := ⟨by decide, by rfl⟩

theorem witness_OutOfRangeRendersTheOverflowGlyph :
    ((-1000 : Int) < -999 ∨ 9999 < (-1000 : Int)) ∧ ((10000 : Int) < -999 ∨ 9999 < (10000 : Int)) := by decide

theorem witness_NonNegativeValuesRenderTheirDigits : 0 ≤ 9999 ∧ 9999 ≤ 9999 := by decide

theorem witness_NegativeValuesRenderMinusAndDigits : (1 ≤ 1 ∧ 1 ≤ 999) ∧ (1 ≤ 999 ∧ 999 ≤ 999) := by decide

/-- `clearing` is busy: the BUSY clauses of the five commands' statements below. -/
theorem witness_CommandWhileBusyIsRejected : clearing.prog ≠ [] := by decide

theorem witness_ClearSendsBlankCells :
    (∃ o, (o = exec .clear State.reset ∨ o = exec (.wrCmd 0x00000001#32) State.reset) ∧ State.reset.prog = [])
      ∧ ∃ o, (o = exec .clear clearing ∨ o = exec (.wrCmd 0x00000001#32) clearing) ∧ clearing.prog ≠ [] :=
  ⟨⟨_, .inl rfl, rfl⟩, _, .inr rfl, by decide⟩

theorem witness_RenderDigitsSendsTheDataLanes :
    (∃ o, (o = exec .renderDigits dataState ∨ o = exec (.wrCmd 0x00000002#32) dataState) ∧ dataState.prog = [])
      ∧ ∃ o, (o = exec .renderDigits clearing ∨ o = exec (.wrCmd 0x00000002#32) clearing) ∧ clearing.prog ≠ [] :=
  ⟨⟨_, .inl rfl, rfl⟩, _, .inr rfl, by decide⟩

theorem witness_RenderNumberSendsTheRenderedValue :
    (∃ o, (o = exec (.renderNumber true) dataState
        ∨ o = exec (.wrCmd (if true then 0x00000013#32 else 0x00000003#32)) dataState) ∧ dataState.prog = [])
      ∧ ∃ o, (o = exec (.renderNumber false) clearing
        ∨ o = exec (.wrCmd (if false then 0x00000013#32 else 0x00000003#32)) clearing) ∧ clearing.prog ≠ [] :=
  ⟨⟨_, .inl rfl, rfl⟩, _, .inr rfl, by decide⟩

/-- DISPLAY(3, 1) fits and DISPLAY(3, 2) does not; DISPLAY(0, 4) fits and DISPLAY(1, 4) does not. -/
theorem witness_DisplaySendsTheChosenLanes :
    (∃ o, (o = exec (.display 3#2 0#2) dataState ∨ o = exec (.wrCmd 0x00000304#32) dataState) ∧ dataState.prog = [])
      ∧ (∃ o, (o = exec (.display 3#2 1#2) dataState ∨ o = exec (.wrCmd 0x00001304#32) dataState))
      ∧ (3 ≤ 3 ∧ 1 ≤ 1 ∧ 1 ≤ 4 ∧ 3 + 1 ≤ 4) ∧ (1 ≤ 2 ∧ 2 ≤ 4 ∧ 4 < 3 + 2)
      ∧ (0 ≤ 3 ∧ 1 ≤ 4 ∧ 4 ≤ 4 ∧ 0 + 4 ≤ 4) ∧ 4 < 1 + 4 :=
  ⟨⟨_, .inl rfl, rfl⟩, ⟨_, .inl rfl⟩, by decide, by decide, by decide, by decide⟩

theorem witness_WriteFixedSendsOneLane :
    3 ≤ 3
      ∧ (∃ o, (o = exec (.writeFixed 3#2) dataState ∨ o = exec (.wrCmd 0x00000305#32) dataState) ∧ dataState.prog = [])
      ∧ ∃ o, (o = exec (.writeFixed 3#2) clearing ∨ o = exec (.wrCmd 0x00000305#32) clearing) ∧ clearing.prog ≠ [] :=
  ⟨by decide, ⟨_, .inl rfl, rfl⟩, _, .inr rfl, by decide⟩

theorem witness_IllegalCommandIsRejected :
    State.reset.prog = [] ∧ (0x00001304#32) ≠ 1#32 ∧ (0x00001304#32) ≠ 2#32
      ∧ (0x00001304#32) &&& 0xFFFFFFEF#32 ≠ 3#32 ∧ (0x00001304#32) &&& 0xFFFFFCFF#32 ≠ 5#32
      ∧ (0x00001304#32) &&& 0xFFFFCCFF#32 = 4#32
      ∧ 4 < ((0x00001304#32).extractLsb' 8 2).toNat + ((0x00001304#32).extractLsb' 12 2).toNat + 1 := by decide

theorem witness_DecodeOfEncodeIsTheInstruction :
    (Instr.display 3#2 0#2).wf narrow.params = true ∧ (Instr.sample 4095#16).wf narrow.params = true := by decide

theorem witness_DecodedWordIsItsEncoding :
    decode narrow.params (.bus ⟨0x004#9, 4, 5#32⟩) = .instr .rdStatus
      ∧ decode narrow.params (.smp 4095) = .instr (.sample 4095#16)
      ∧ decode narrow.params (.cmd 0x00000304#32) = .instr (.display 3#2 0#2)
      ∧ decode narrow.params (.tm 0x8F#8) = .instr (.tmDisp 7#3) := by decide

/-- With `sequencerMoves_each` for the sequencer's turn. -/
theorem witness_StepRunsTheDecodedInstruction :
    decode State.reset.params (.bus ⟨0x01C#9, 4, 0#32⟩) = .instr .rdSum
      ∧ decode State.reset.params (.smp 7) = .instr (.sample 7#16)
      ∧ decode State.reset.params (.cmd 1#32) = .instr .clear
      ∧ (wireState [.byte 0xC3#8, .stop] 0).inputs = [] ∧ State.reset.prog = []
      ∧ (wireState [.byte 0xC3#8, .stop] 0).prog = .byte 0xC3#8 :: [.stop]
      ∧ (wireState [.byte 0xC3#8, .stop] 0).firstByte = true
      ∧ decode State.reset.params (.tm 0xC3#8) = .instr (.tmAddr 3#2) := by decide

theorem witness_StoredTableWordIsRunNext :
    decodeTableWord 16 0x11C = some (.wrSum 0#32) ∧ decodeTableWord 32 0x305 = some (.writeFixed 3#2)
      ∧ decodeTableWord 0 7 = some (.sample 7#16) ∧ decodeTableWord 8 0x8F = some (.tmDisp 7#3)
      ∧ onWire (.tmDisp 7#3) = true ∧ decodeTableWord 8 0 = some (.sample 0#16) ∧ onWire (.sample 0#16) = false := by
  decide

/-- The first event, the last event without an ack, and bit 7. -/
theorem witness_CommandByteSendsOneEvent :
    (∀ k ∈ [0, 44, 58], (wireState [.byte 0x40#8, .stop] k).firstByte = true
        ∧ (wireState [.byte 0x40#8, .stop] k).prog = .byte 0x40#8 :: [.stop]
        ∧ (wireState [.byte 0x40#8, .stop] k).k < (if (wireState [.byte 0x40#8, .stop] k).ackok then 57 else 59))
      ∧ 7 < 8 ∧ 44 = 6 * 7 + 2
      ∧ { wireState [.byte 0x40#8, .stop] 56 with ackok := true }.k < 57 := by decide

theorem witness_CommandByteNotDueIsRefused :
    State.reset.prog.head? ≠ some (.byte 0x40#8) ∧ onWire .tmAuto = true ∧ State.reset.firstByte = false := by decide

/-- The places of a BYTE that `DataPhaseSendsBitsLsbFirst`, `AckSlotReleasesTheLine`, `AckReadJudgesTheLevel` and
`AckPhaseEndsAsTheAckSays` speak of: both ends of each range of `K`, with the sequencer's turn given in each way. -/
theorem witness_byte_places (k : Nat) (_hk : k ∈ [0, 47, 48, 52, 53, 54, 56, 58]) (s : State)
    (hs : s = wireState [.byte 0xFF#8, .stop] k) :
    SequencerMoves s s ∧ SequencerMoves (seqNext s) { s with inputs := [.event (.sample 7)] }
      ∧ SequencerMoves { s with inputs := [.event .seqAll] } { s with inputs := [.event .seqAll] }
      ∧ s.prog = .byte 0xFF#8 :: [.stop] ∧ s.k = k ∧ s.ackok = false ∧ s.acks = [] ∧ 47 = 6 * 7 + 5
      ∧ { s with ackok := true }.ackok = true ∧ { s with acks := [true] }.acks = true :: [] := by
  subst hs
  obtain ⟨h1, h2, h3⟩ := sequencerMoves_each (wireState [.byte 0xFF#8, .stop] k) rfl (by simp [wireState])
  exact ⟨h1, h2, h3, rfl, rfl, rfl, rfl, rfl, rfl, rfl⟩

theorem witness_StartSendsItsFourEvents :
    ∀ k ∈ [0, 3], SequencerMoves (seqNext (wireState [.start, .byte 0x40#8, .stop] k))
        { wireState [.start, .byte 0x40#8, .stop] k with inputs := [.event (.sample 7)] }
      ∧ (wireState [.start, .byte 0x40#8, .stop] k).prog = .start :: [.byte 0x40#8, .stop]
      ∧ (wireState [.start, .byte 0x40#8, .stop] k).k = k :=
  fun k _ => ⟨(sequencerMoves_each _ rfl (by simp [wireState])).2.1, rfl, rfl⟩

theorem witness_StopSendsItsEightEvents :
    ∀ k ∈ [0, 7], SequencerMoves (seqNext (wireState [.stop] k))
        { wireState [.stop] k with inputs := [.event (.sample 7)] }
      ∧ (wireState [.stop] k).prog = .stop :: [] ∧ (wireState [.stop] k).k = k :=
  fun k _ => ⟨(sequencerMoves_each _ rfl (by simp [wireState])).2.1, rfl, rfl⟩

/-- A lawful busy state that steps: `StepKeepsWireInvariant`, `StepKeepsSnapShape`, `SequencerAlwaysSteps`
(with `sequencerMoves_each`), `TraceIsAppendOnly`, `SequencerEmptiesItsProgram`. -/
theorem witness_lawful_busy_state :
    WireInv clearing ∧ SnapInv clearing ∧ clearing.inputs = [] ∧ clearing.prog ≠ []
      ∧ step clearing
        = .next { clearing with dioMode := .out0, trace := clearing.trace ++ [.dio false], k := 1 }
      ∧ Host.Core.run core 1 clearing
        = .next { clearing with dioMode := .out0, trace := clearing.trace ++ [.dio false], k := 1 } :=
  ⟨by decide, by decide, rfl, by decide, rfl, rfl⟩

theorem witness_OnlyTheSequencerDrivesTheLines :
    step clearing = .next (next clearing) ∧ (next clearing).dioMode ≠ clearing.dioMode
      ∧ (next clearing).trace ≠ clearing.trace
      ∧ onWire .clear = false ∧ exec .clear State.reset = .next clearing := ⟨rfl, by decide, by decide, rfl, rfl⟩

/-- A write of another CMD word while `clearing` is busy is turned away, and one to the idle block is taken. -/
theorem witness_CmderrFollowsTheCommandWrites :
    step { clearing with inputs := [.event (.host ⟨0x10C#9, 4, 2#32⟩)] }
        = .next { clearing with cmderr := true, resp := .done }
      ∧ clearing.cmderr = false
      ∧ step { hostState ⟨0x10C#9, 4, 1#32⟩ with cmderr := true } = .next clearing := ⟨by rfl, rfl, by rfl⟩

/-- The command in flight with a SEQ entry and a sample to come, and a write to DATA before them. -/
theorem witness_CommandInFlightIgnoresLaterWrites :
    (∀ x ∈ (seqNext clearing).inputs, x.sparesHostPort = true)
      ∧ Host.Core.run core 1 (seqNext clearing) = .next (next (seqNext clearing))
      ∧ (0x10#8) ∈ [0x08#8, 0x10#8, 0x14#8, 0x18#8] ∧ (seqNext clearing).prog ≠ [] :=
  ⟨by decide, rfl, by decide, by decide⟩

theorem witness_DataLineIsStableWhileClockIsHigh :
    WireInv clearing ∧ clearing.clkLvl = true
      ∧ (next clearing).dioMode ≠ clearing.dioMode ∧ step clearing = .next (next clearing) :=
  ⟨by decide, rfl, by decide, rfl⟩

theorem witness_NackIsClearedOnlyByAcceptance :
    step { hostState ⟨0x10C#9, 4, 1#32⟩ with nack := true } = .next clearing ∧ clearing.nack = false :=
  ⟨by rfl, rfl⟩

theorem witness_AcceptedCommandEndsAfterItsEvents :
    WireInv State.reset ∧ State.reset.inputs = [] ∧ State.reset.prog = [] ∧ Command.clear.legal = true
      ∧ exec Command.clear.toInstr State.reset = .next clearing := ⟨by decide, rfl, rfl, rfl, rfl⟩

theorem witness_ReceiverReadsTheLatchedCommand :
    WireInv dataState ∧ dataState.inputs = [] ∧ dataState.prog = [] ∧ (Command.display 3#2 0#2).legal = true
      ∧ exec (Command.display 3#2 0#2).toInstr dataState = .next (acceptedWith 0x40#8 3 [0x6D#8] dataState) :=
  ⟨by decide, rfl, rfl, rfl, by rfl⟩

theorem witness_RegistersReadTheirResetValues :
    (Instr.rdBright, narrow.params.brightRst.setWidth 32) ∈
      [ (Instr.rdAvg, 0x00000000#32), (Instr.rdStatus, 0x00000000#32), (Instr.rdBright, narrow.params.brightRst.setWidth 32),
        (Instr.rdCmd, 0x00000000#32), (Instr.rdData, 0x00000000#32), (Instr.rdValue, 0x00000000#32),
        (Instr.rdSegq, narrow.params.digitSeg[0].setWidth 32), (Instr.rdSum, 0x00000000#32) ] := by decide

/-- A lost sample and an ACK line before, a read of SUM, a sequencer turn after. -/
theorem witness_ResetHoldsTheBlock :
    portsAccept narrow.params [.host (readAccess 0x1C#8), .sample 4095, .ack true]
      ∧ (∀ a', Event.host a' ∉ [Event.seq])
      ∧ step { clearing with inputs := [.reset ([.sample 4095, .ack true] ++ .host (readAccess 0x1C#8) :: [.seq])] }
        = .next { State.reset with trace := [.idle, .idle], acks := [true], resp := .data 0#32 }
      ∧ (readAccess 0x1C#8).n = 4 ∧ (readAccess 0x1C#8).desc = 0#1 ++ 0x1C#8
      ∧ (writeAccess 0x1C#8 5#32).desc.toNat % 4 = 0 ∧ 256 ≤ (writeAccess 0x1C#8 5#32).desc.toNat
      ∧ (0x01F#9).toNat % 4 ≠ 0 := by
  refine ⟨⟨fun a ha => ?_, fun d hd => ?_⟩, by simp, by rfl, rfl, rfl, by decide, by decide, by decide⟩
  · simp at ha; subst ha; decide
  · simp at hd; subst hd; decide

theorem witness_PseudoCommandsExpandToTheirWords : (1 ≤ 1 ∧ 3 + 1 ≤ 4) ∧ ¬(1 ≤ 2 ∧ 3 + 2 ≤ 4) ∧ 3 ≤ 3 ∧ 3 < 4 := by
  decide

/-- A busy block that an unfair scheduler leaves alone. -/
theorem witness_PollLoopsWhileBusy :
    clearing.prog ≠ [] ∧ { clearing with inputs := [.poll ⟨[], false⟩] }.inputs = .poll ⟨[], false⟩ :: [] :=
  ⟨by decide, rfl⟩

/-- A poll at once, then a SEQ, a sample and a reset before the second poll, then a fair scheduler. -/
theorem witness_WaitIdleEndsIdle :
    (let w : Wait := ⟨[[], [.seq, .sample 7, .reset [.host (readAccess 0x04#8)]]], true⟩;
      WireInv { clearing with inputs := w.nextRound } ∧ w.fair = true
        ∧ (∀ acts ∈ w.rounds, ∀ m ∈ acts, m.accepted clearing.params)
        ∧ { clearing with inputs := w.nextRound }.inputs = w.nextRound ++ []) := by
  refine ⟨by decide, rfl, ?_, rfl⟩
  intro acts ha m hm
  simp only [List.mem_cons, List.not_mem_nil, or_false] at ha
  rcases ha with rfl | rfl
  · cases hm
  · simp only [List.mem_cons, List.not_mem_nil, or_false] at hm
    rcases hm with rfl | rfl | rfl
    · trivial
    · show 7 < 2 ^ _; decide
    · exact ⟨fun a h => by simp at h; subst h; decide, fun d h => by simp at h⟩

end Sys2Proof.Tests
end

section
/-! SUPPORT. Which operation a step runs, by the port its word arrives at, and the two statements about it (R16, R70,
R80, R94, R190). -/

namespace Sys2Proof.Machine

/-! ## What each port's decoder answers -/

/-- A sample event names SAMPLE of its value, when that fits (R83). -/
theorem decodeSmp_eq_instr (p : Params) (d : Nat) (i : Instr) :
    decodeSmp p d = .instr i ↔ d < 2 ^ p.sampleW ∧ i = .sample (BitVec.ofNat 16 d) := by
  unfold decodeSmp
  split
  case isTrue hd => simp [hd, eq_comm]
  case isFalse hd => simp [hd]

/-- A CMD word names the operation of its command (R88). -/
theorem decode_cmd_eq_instr (p : Params) (w : Word) (i : Instr) :
    decode p (.cmd w) = .instr i ↔ ∃ c, decodeCmd w = some c ∧ i = c.toInstr := by
  unfold decode
  cases hc : decodeCmd w with
  | none => simp [hc]
  | some c => simp [hc, eq_comm]

/-- A byte at the sequencer names the operation of its row (R90). -/
theorem decode_tm_eq_instr (p : Params) (b : Byte) (i : Instr) :
    decode p (.tm b) = .instr i ↔ decodeTm b = some i := by
  unfold decode
  cases hi : decodeTm b <;> simp [hi]

/-- The operation of a byte sends that byte (R90). -/
theorem sentByte_of_decodeTm (b : Byte) (i : Instr) (h : decodeTm b = some i) : sentByte i = some b := by
  have hb := sentByte_decodeTm b
  rw [h] at hb
  exact of_decide_eq_true hb

/-- Only the command-byte operations send a byte (R177-R180). -/
theorem onWire_of_sentByte (b : Byte) (i : Instr) (h : sentByte i = some b) : onWire i = true := by
  cases i
  case tmAuto | tmFixed | tmAddr | tmDisp => rfl
  all_goals cases h

/-- A write of a word to CMD is WR.CMD of it (R82). -/
theorem decodeBus_writeCmd (w : Word) : decodeBus (writeAccess 0x0C#8 w) = .instr (.wrCmd w) := by
  have hoff := writeAccess_off 0x0C#8 w
  refine decodeBus_of_row _ _ ((Access.rejected_eq_none _).2 ⟨?_, rfl, ?_⟩) rfl
  · rw [hoff]; decide
  · rw [hoff]; decide

/-! ## The step of a port word -/

/-- A step whose turn is a port word runs the operation the word decodes to (R16, R80). -/
theorem step_of_word (s t : State) (pw : PortWord) (i : Instr) (hf : fetch s = .word pw t)
    (hd : decode t.params pw = .instr i) : step s = exec i t := by
  simp only [step, hf, hd]

/-- A host access at the head of the schedule runs its operation. -/
theorem step_of_host (s : State) (a : Access) (rest : List Input) (i : Instr)
    (hin : s.inputs = .event (.host a) :: rest) (hd : decodeBus a = .instr i) :
    step s = exec i { s with inputs := rest } :=
  step_of_word s _ (.bus a) i (by simp only [fetch, hin]) hd

/-- A sample event that fits runs SAMPLE of it. -/
theorem step_of_sample (s : State) (d : Nat) (rest : List Input) (i : Instr)
    (hin : s.inputs = .event (.sample d) :: rest) (hd : decodeSmp s.params d = .instr i) :
    step s = exec i { s with inputs := rest } :=
  step_of_word s _ (.smp d) i (by simp only [fetch, hin]) hd

/-- A display command's operation is `DisplayCommand` of it (R161). -/
theorem exec_toInstr (c : Command) (s : State) : exec c.toInstr s = .next (displayCommand (some c) s) := by
  cases c <;> rfl

/-- WR.CMD of a legal word is the operation of the command the word decodes to (R161). -/
theorem exec_wrCmd_of_decodeCmd (w : Word) (c : Command) (h : decodeCmd w = some c) (s : State) :
    exec (.wrCmd w) s = exec c.toInstr s := by
  rw [exec_toInstr, ← h]
  rfl

/-- The CMD write at the head of the schedule runs the display command of its word. -/
theorem step_of_cmdWrite (s : State) (w : Word) (rest : List Input) (c : Command)
    (hin : s.inputs = .event (.host (writeAccess 0x0C#8 w)) :: rest) (hc : decodeCmd w = some c) :
    step s = exec c.toInstr { s with inputs := rest } := by
  rw [step_of_host s _ rest _ hin (decodeBus_writeCmd w), exec_wrCmd_of_decodeCmd w c hc]

/-! ## The step of the sequencer's turn -/

/-- The three ways the sequencer has the turn are fetched as its turn (R94, R190). -/
theorem fetch_of_sequencerMoves (s t : State) (h : SequencerMoves s t) : fetch s = sequencerTurn t := by
  obtain ⟨hin, rfl⟩ | ⟨rest, hin, rfl⟩ | ⟨rest, hin, hp, rfl⟩ := h
  · simp only [fetch, hin]
  · simp only [fetch, hin]
  · simp only [fetch, hin, if_neg hp]

/-- The sequencer's turn uses its schedule entry and nothing else. -/
theorem SequencerMoves.eq_with_inputs (s t : State) (h : SequencerMoves s t) :
    t = { s with inputs := t.inputs } := by
  obtain ⟨-, rfl⟩ | ⟨rest, -, rfl⟩ | ⟨rest, -, -, rfl⟩ := h <;> rfl

/-- The sequencer's turn is one sequencer step, whatever the head of PROG (R190). -/
theorem step_of_sequencerMoves (s t : State) (h : SequencerMoves s t) : step s = seqStep t :=
  step_of_sequencerTurn t s (fetch_of_sequencerMoves s t h)

/-- The first byte of a transaction, at the sequencer's turn, runs the operation it decodes to (R89, R90). -/
theorem step_of_commandByte (s t : State) (items : List Item) (b : Byte) (i : Instr) (h : SequencerMoves s t)
    (hp : s.prog = .byte b :: items) (hf : s.firstByte = true) (hd : decodeTm b = some i) :
    step s = exec i t := by
  refine step_of_word s t (.tm b) i ?_ ((decode_tm_eq_instr _ _ _).2 hd)
  rw [fetch_of_sequencerMoves s t h, SequencerMoves.eq_with_inputs s t h]
  simp only [sequencerTurn, hp, hf, if_true]

/-- With PROG empty the sequencer's turn passes, whichever way it comes (R94, R190). -/
theorem step_of_sequencer_idle (s : State) (rest : List Input) (hp : s.prog = []) :
    step { s with inputs := [] } = .next { s with inputs := [] }
      ∧ step { s with inputs := .event .seq :: rest } = .next { s with inputs := rest }
      ∧ step { s with inputs := .event .seqAll :: rest } = .next { s with inputs := rest } := by
  refine ⟨?_, ?_, ?_⟩
  · simp only [step, fetch, sequencerTurn, hp]
  · simp only [step, fetch, sequencerTurn, hp]
  · simp only [step, fetch, hp, if_true]

/-- Settles O31: a step is `exec` of the operation its port word decodes to, and the sequencer's turn is one sequencer
step in any schedule. -/
theorem stepRunsTheDecodedInstruction : Obligations.StepRunsTheDecodedInstruction := by
  unfold Obligations.StepRunsTheDecodedInstruction
  refine ⟨?host, ?sample, ?commandByte, step_of_sequencerMoves, step_of_sequencer_idle, ?cmdWrite⟩
  case host => exact fun s rest a i hd => step_of_host _ a rest i rfl hd
  case sample => exact fun s rest d i hd => step_of_sample _ d rest i rfl hd
  case commandByte =>
    intro s t items b i hm hp hf hd
    exact step_of_commandByte s t items b i hm hp hf ((decode_tm_eq_instr _ _ _).1 hd)
  case cmdWrite =>
    intro s rest w i hd
    obtain ⟨c, hc, rfl⟩ := (decode_cmd_eq_instr _ _ _).1 hd
    exact step_of_cmdWrite _ w rest c rfl hc

/-! ## The word that `withFetchWord` stores -/

/-- A table word names an operation through the port it arrives at (log entry 9). -/
theorem decodeTableWord_eq_some (nbits w : Nat) (i : Instr) :
    decodeTableWord nbits w = some i
      ↔ ∃ pw, tablePortWord nbits w = some pw ∧ decode Params.standard pw = .instr i := by
  unfold decodeTableWord
  cases tablePortWord nbits w with
  | none => simp
  | some pw => cases hd : decode Params.standard pw <;> simp [hd]

/-- A word of 16 bits arrives as a host access with n = 4 and data 0, when it is a descriptor. -/
theorem tablePortWord_sixteen (w : Nat) (pw : PortWord) :
    tablePortWord 16 w = some pw ↔ w < 2 ^ 9 ∧ pw = .bus ⟨BitVec.ofNat 9 w, 4, 0#32⟩ := by
  simp [tablePortWord, eq_comm]

/-- A word of 32 bits arrives as a CMD word. -/
theorem tablePortWord_thirtyTwo (w : Nat) (pw : PortWord) :
    tablePortWord 32 w = some pw ↔ w < 2 ^ 32 ∧ pw = .cmd (BitVec.ofNat 32 w) := by
  simp [tablePortWord, eq_comm]

/-- A word of no bits arrives as a sample. -/
theorem tablePortWord_zero (w : Nat) : tablePortWord 0 w = some (.smp w) := rfl

/-- A word of 8 bits arrives at the sequencer when it is a command byte, else as a sample. -/
theorem tablePortWord_eight (w : Nat) (pw : PortWord) :
    tablePortWord 8 w = some pw
      ↔ w < 2 ^ 8 ∧ pw = if (decodeTm (BitVec.ofNat 8 w)).isSome then .tm (BitVec.ofNat 8 w) else .smp w := by
  cases hb : (decodeTm (BitVec.ofNat 8 w)).isSome <;> simp [tablePortWord, hb, eq_comm]

/-- A placed host access is run next. -/
theorem step_placeWord_bus (s : State) (a : Access) (i : Instr) (h : decodeBus a = .instr i) :
    step (placeWord (.bus a) s) = exec i s :=
  step_of_host _ a s.inputs i rfl h

/-- A placed CMD word is run next, by its write. -/
theorem step_placeWord_cmd (s : State) (w : Word) (c : Command) (h : decodeCmd w = some c) :
    step (placeWord (.cmd w) s) = exec c.toInstr s :=
  step_of_cmdWrite _ w s.inputs c rfl h

/-- A placed sample of 16 bits is run next, for every `SAMPLE_W`: one too wide for the state's own width is refused at
the port as by the operation (R225). -/
theorem step_placeWord_smp (s : State) (d : Nat) (h : d < 2 ^ 16) :
    step (placeWord (.smp d) s) = exec (.sample (BitVec.ofNat 16 d)) s := by
  by_cases hd : d < 2 ^ s.params.sampleW
  · exact step_of_sample _ d s.inputs _ rfl ((decodeSmp_eq_instr _ _ _).2 ⟨hd, rfl⟩)
  · have hport : step (placeWord (.smp d) s) = .refused .sampleTooWide := by
      simp only [step, placeWord, fetch, decode, decodeSmp, if_neg hd, onReject]
    have hop : exec (.sample (BitVec.ofNat 16 d)) s = .refused .sampleTooWide := by
      simp only [exec, execSample, sampleEvent, BitVec.toNat_ofNat, Nat.mod_eq_of_lt h, if_neg hd]
    rw [hport, hop]

/-- A placed command byte is run next, as the first byte of the transaction under way. -/
theorem step_placeWord_tm (s : State) (b : Byte) (i : Instr) (h : decodeTm b = some i) :
    step (placeWord (.tm b) s)
      = exec i { s with prog := .byte b :: s.prog, k := 0, ackok := false, firstByte := true } :=
  step_of_commandByte _ _ s.prog b i (.inr (.inl ⟨s.inputs, rfl, rfl⟩)) rfl rfl h

/-- A placed word that the standard parameters decode as a sample is run next. -/
theorem step_placeWord_smp_standard (s : State) (d : Nat) (i : Instr)
    (h : decode Params.standard (.smp d) = .instr i) : step (placeWord (.smp d) s) = exec i s := by
  obtain ⟨hd, rfl⟩ := (decodeSmp_eq_instr _ _ _).1 h
  exact step_placeWord_smp s d hd

/-- A word stored by `withFetchWord` is its port word, placed. -/
theorem exists_placeWord_of_decodeTableWord (s : State) (nbits w : Nat) (i : Instr)
    (h : decodeTableWord nbits w = some i) :
    ∃ pw, tablePortWord nbits w = some pw ∧ decode Params.standard pw = .instr i
      ∧ s.withFetchWord nbits w = placeWord pw s := by
  obtain ⟨pw, hpw, hd⟩ := (decodeTableWord_eq_some _ _ _).1 h
  exact ⟨pw, hpw, hd, by simp only [State.withFetchWord, hpw]⟩

/-- Settles O32: by the width of the word, which fixes its port, and the placed word of that port. -/
theorem storedTableWordIsRunNext : Obligations.StoredTableWordIsRunNext := by
  intro s w i
  refine ⟨fun h => ?bus, fun h => ?cmd, fun h => ?smp, fun h hw => ?offWire, fun h hw => ?onWire⟩
  all_goals
    obtain ⟨pw, hpw, hd, hs⟩ := exists_placeWord_of_decodeTableWord s _ w i h
    rw [hs]
  case bus =>
    obtain ⟨-, rfl⟩ := (tablePortWord_sixteen w pw).1 hpw
    exact step_placeWord_bus s _ i hd
  case cmd =>
    obtain ⟨-, rfl⟩ := (tablePortWord_thirtyTwo w pw).1 hpw
    obtain ⟨c, hc, rfl⟩ := (decode_cmd_eq_instr _ _ _).1 hd
    exact step_placeWord_cmd s _ c hc
  case smp =>
    rw [tablePortWord_zero] at hpw
    cases hpw
    exact step_placeWord_smp_standard s w i hd
  case offWire =>
    obtain ⟨-, rfl⟩ := (tablePortWord_eight w pw).1 hpw
    split at hd
    · have hi := (decode_tm_eq_instr _ _ _).1 hd
      rw [onWire_of_sentByte _ i (sentByte_of_decodeTm _ i hi)] at hw
      cases hw
    · rename_i hb
      rw [if_neg hb]
      exact step_placeWord_smp_standard s w i hd
  case onWire =>
    obtain ⟨-, rfl⟩ := (tablePortWord_eight w pw).1 hpw
    split at hd
    · rename_i hb
      rw [if_pos hb]
      exact step_placeWord_tm s _ i ((decode_tm_eq_instr _ _ _).1 hd)
    · obtain ⟨-, rfl⟩ := (decodeSmp_eq_instr _ _ _).1 hd
      cases hw

end Sys2Proof.Machine
end

section
/-! SUPPORT. What one step leaves of the block, with the schedule entry that brought it: the one case analysis from which
each statement about the state derives (R16, R70, R202). -/

namespace Sys2Proof.Machine

/-- What a host access can do: answer the port and store a register, or bring a CMD word. -/
inductive AccessEffect (desc : BitVec 9) (data : Word) (s : State) : State → Prop
  | registers (level : BitVec 3) (dataReg value segcode : Word) (resp : Response) :
      AccessEffect desc data s
        { s with level := level, data := dataReg, value := value, segcode := segcode, resp := resp }
  | command (hd : desc = 0x10C#9) : AccessEffect desc data s (displayCommand (decodeCmd data) s)

/-- The rows of the host window, WR.CMD apart, write registers and the port's answer alone (R62, R63, R82). -/
theorem decodeDescriptor_effect (desc : BitVec 9) (data : Word) (i : Instr) (h : decodeDescriptor desc data = some i)
    (s t : State) (he : exec i s = .next t) : AccessEffect desc data s t := by
  unfold decodeDescriptor at h
  iterate 7
    rcases of_ite_some h with ⟨-, rfl⟩ | h
    · cases he; exact .registers _ _ _ _ _
  rcases of_ite_some h with ⟨hd, rfl⟩ | h
  · cases he; exact .command hd
  iterate 8
    rcases of_ite_some h with ⟨-, rfl⟩ | h
    · cases he; exact .registers _ _ _ _ _
  cases h

/-- An accepted host access has size 4 and its descriptor's row. -/
theorem decodeBus_eq_instr (a : Access) (i : Instr) (h : decodeBus a = .instr i) :
    a.n = 4 ∧ decodeDescriptor a.desc a.data = some i := by
  unfold decodeBus at h
  split at h
  · cases h
  · rename_i hr
    obtain ⟨-, hn, -⟩ := (Access.rejected_eq_none a).1 hr
    split at h
    · rename_i hi
      cases h
      exact ⟨hn, hi⟩
    · cases h

/-- What one step can do to the block. A step that is no sample, no CMD write, no sequencer event and no reset touches
only the host's registers and the model's own fields. -/
inductive StepEffect (s : State) : State → Prop
  | spared (inputs : List Input) (acks : List Bool) (level : BitVec 3) (data value segcode : Word) (resp : Response) :
      StepEffect s
        { s with
          inputs := inputs, acks := acks, level := level, data := data, value := value, segcode := segcode
          resp := resp }
  | sampled (d : Nat) (rest : List Input) (hin : s.inputs = .event (.sample d) :: rest)
      (hd : d < 2 ^ s.params.sampleW) : StepEffect s (insertSample (BitVec.ofNat 16 d) { s with inputs := rest })
  | commanded (w : Word) (rest : List Input) (hin : s.inputs = .event (.host ⟨0x10C#9, 4, w⟩) :: rest) :
      StepEffect s (displayCommand (decodeCmd w) { s with inputs := rest })
  | sequenced (inputs : List Input) (hm : SequencerMoves s { s with inputs := inputs }) (it : Item)
      (items : List Item) (ev : WireEvent) (hp : s.prog = it :: items) (hev : (events it s.ackok)[s.k]? = some ev) :
      StepEffect s (advance it items (perform ev { s with inputs := inputs }))
  | wasReset (during : List Event) (rest : List Input) (acks : List Bool) (resp : Response)
      (hin : s.inputs = .reset during :: rest) :
      StepEffect s { resetBlock { s with inputs := rest } with acks := acks, resp := resp }

/-- The sequencer's turn is an event of the head item, or passes with PROG empty (R190). -/
theorem stepEffect_of_seqStep (s t : State) (inputs : List Input) (hm : SequencerMoves s { s with inputs := inputs })
    (h : seqStep { s with inputs := inputs } = .next t) : StepEffect s t := by
  obtain ⟨-, rfl⟩ | ⟨it, items, ev, hp, hev, rfl⟩ := (seqStep_next _ t).1 h
  · exact .spared _ _ _ _ _ _ _
  · exact .sequenced inputs hm it items ev hp hev

/-- A host access that the decoder accepts writes registers or brings a CMD word. -/
theorem stepEffect_of_access (s t : State) (a : Access) (rest : List Input) (i : Instr)
    (hin : s.inputs = .event (.host a) :: rest) (hd : decodeBus a = .instr i)
    (h : exec i { s with inputs := rest } = .next t) : StepEffect s t := by
  obtain ⟨desc, n, data⟩ := a
  obtain ⟨hn, hrow⟩ := decodeBus_eq_instr _ i hd
  cases hn
  cases decodeDescriptor_effect desc data i hrow _ t h with
  | registers => exact .spared _ _ _ _ _ _ _
  | command hdesc => subst hdesc; exact .commanded data rest hin

/-- Every step that answers a next state has one of these effects. -/
theorem step_effect (s t : State) (h : step s = .next t) : StepEffect s t := by
  match hin : s.inputs with
  | [] =>
    have hm : SequencerMoves s s := .inl ⟨hin, rfl⟩
    exact stepEffect_of_seqStep s t s.inputs hm (step_of_sequencerMoves s s hm ▸ h)
  | .event (.sample d) :: rest =>
    by_cases hd : d < 2 ^ s.params.sampleW
    · rw [step_of_sample s d rest _ hin ((decodeSmp_eq_instr _ _ _).2 ⟨hd, rfl⟩)] at h
      obtain ⟨-, rfl⟩ := (sampleEvent_next _ _ t).1 h
      exact .sampled d rest hin hd
    · simp only [step, fetch, hin, decode, decodeSmp, if_neg hd, onReject] at h
      cases h
  | .event (.host a) :: rest =>
    cases hd : decodeBus a with
    | instr i => exact stepEffect_of_access s t a rest i hin hd (step_of_host s a rest i hin hd ▸ h)
    | rejected r =>
      simp only [step, fetch, hin, decode, hd] at h
      obtain ⟨off, n, dir, rfl⟩ | ⟨off, n, dir, rfl⟩ | ⟨off, rfl⟩ := decodeBus_rejected a r hd
      · cases h; exact .spared _ _ _ _ _ _ _
      · cases h; exact .spared _ _ _ _ _ _ _
      · cases h
  | .event .seq :: rest =>
    have hm : SequencerMoves s { s with inputs := rest } := .inr (.inl ⟨rest, hin, rfl⟩)
    exact stepEffect_of_seqStep s t rest hm (step_of_sequencerMoves s _ hm ▸ h)
  | .event .seqAll :: rest =>
    by_cases hp : s.prog = []
    · simp only [step, fetch, hin, if_pos hp] at h
      cases h
      exact .spared _ _ _ _ _ _ _
    · have hm : SequencerMoves s s := .inr (.inr ⟨rest, hin, hp, rfl⟩)
      exact stepEffect_of_seqStep s t s.inputs hm (step_of_sequencerMoves s s hm ▸ h)
  | .event (.ack r) :: rest =>
    simp only [step, fetch, hin] at h
    cases h
    exact .spared _ _ _ _ _ _ _
  | .reset during :: rest =>
    simp only [step, fetch, hin] at h
    obtain ⟨acks, resp, rfl⟩ := underReset_next during _ t h
    exact .wasReset during rest acks resp hin
  | .poll w :: rest =>
    rw [step_poll s w rest hin] at h
    cases h
    exact .spared _ _ _ _ _ _ _

end Sys2Proof.Machine
end

section
/-! SUPPORT. The AVG unit: a sample keeps its invariant, and nothing else but reset writes it (R21-R26, R102, R113). -/

namespace Sys2Proof.Machine

/-! ## Sums over the slots -/

/-- Replacing one entry of a list exchanges it in the sum. -/
theorem sum_set_add_getElem (l : List Nat) (i : Nat) (hi : i < l.length) (a : Nat) :
    (l.set i a).sum + l[i] = l.sum + a := by
  obtain ⟨l₁, l₂, hl, -, hset⟩ := List.exists_of_set (a' := a) hi
  have hsum : l.sum = l₁.sum + (l[i] + l₂.sum) := by
    conv_lhs => rw [hl]
    rw [List.sum_append, List.sum_cons]
  rw [hset, hsum, List.sum_append, List.sum_cons]
  omega

/-- A list of entries at most `m` that are 0 from place `n` on sums to at most `n * m`. -/
theorem sum_le_of_zero_from (l : List Nat) (n m : Nat) (hm : ∀ x ∈ l, x ≤ m)
    (hz : ∀ (i : Nat) (h : i < l.length), n ≤ i → l[i] = 0) : l.sum ≤ n * m := by
  have hdrop : (l.drop n).sum = 0 := by
    refine List.sum_eq_zero fun x hx => ?_
    obtain ⟨i, hi, rfl⟩ := List.getElem_of_mem hx
    rw [List.getElem_drop]
    exact hz _ _ (Nat.le_add_right n i)
  have htake : (l.take n).sum ≤ (l.take n).length • m :=
    List.sum_le_card_nsmul _ m fun x hx => hm x (List.mem_of_mem_take hx)
  calc l.sum = (l.take n).sum := by rw [← List.sum_take_add_sum_drop l n, hdrop, Nat.add_zero]
    _ ≤ (l.take n).length * m := by rwa [← smul_eq_mul]
    _ ≤ n * m := Nat.mul_le_mul_right m (List.length_take_le n l)

/-- Slots of 16 bits that are 0 from slot `n` on sum to at most `n` greatest values (R22, R26 (ii)). -/
theorem bufSum_le (s : State) (n : Nat) (hz : ∀ j : Fin 32, n ≤ j.val → s.buf[j] = 0#16) : bufSum s ≤ n * 65535 := by
  refine sum_le_of_zero_from _ n 65535 (fun x hx => ?_) fun i h hn => ?_
  · obtain ⟨v, hv, rfl⟩ := List.mem_map.1 hx
    exact Nat.le_of_lt_succ v.isLt
  · have hi : i < 32 := by simpa using h
    have hzero : s.buf[i] = 0#16 := hz ⟨i, hi⟩ hn
    simp [hzero]

/-! ## SAMPLE (R102) -/

section Insert

variable (d : Sample) (s : State)

/-- FILL counts up to the window's length (R24). -/
theorem insertSample_fill_toNat : (insertSample d s).fill.toNat = min (s.fill.toNat + 1) 32 := by
  rw [insertSample_fill, BitVec.toNat_ofNat]
  exact Nat.mod_eq_of_lt (by simp only [Config.window]; omega)

/-- CUR goes round the window (R23). -/
theorem insertSample_cur_toNat : (insertSample d s).cur.toNat = (s.cur.toNat + 1) % 32 := by
  simp [BitVec.toNat_add]

/-- The sample goes to the slot at CUR and no other slot changes (R21). -/
theorem insertSample_slot (j : Fin 32) :
    (insertSample d s).buf[j] = if s.cur.toNat = j.val then d else s.buf[j] :=
  Vector.getElem_set s.cur.isLt j.isLt

/-- The slots' sum takes the sample for the one it replaces (R22). -/
theorem bufSum_insertSample :
    bufSum (insertSample d s) + (s.buf[s.cur.toNat]'s.cur.isLt).toNat = bufSum s + d.toNat := by
  have hi : s.cur.toNat < (s.buf.toList.map BitVec.toNat).length := by simpa using s.cur.isLt
  have h := sum_set_add_getElem _ s.cur.toNat hi d.toNat
  simpa [bufSum, Vector.toList_set, List.map_set] using h

variable (h : AvgInv s)
include h

/-- The sum SAMPLE computes in exact integers is the new slots' sum (R102). -/
theorem insertSample_exactSum :
    (s.sumr.toNat : Int) - (s.buf[s.cur.toNat]'s.cur.isLt).toNat + d.toNat = bufSum (insertSample d s) := by
  obtain ⟨-, hsum, -⟩ := h
  have := bufSum_insertSample d s
  omega

/-- Every slot still holds a sample (R21). -/
theorem insertSample_slot_lt (hd : d.toNat < 2 ^ s.params.sampleW) (j : Fin 32) :
    (insertSample d s).buf[j].toNat < 2 ^ (insertSample d s).params.sampleW := by
  obtain ⟨hslot, -⟩ := h
  rw [insertSample_slot, insertSample_params]
  split
  · exact hd
  · exact hslot j

/-- While the window is not full CUR is the next free slot (R26 (i)). -/
theorem insertSample_cur_eq_fill (hf : (insertSample d s).fill.toNat < 32) :
    (insertSample d s).cur.toNat = (insertSample d s).fill.toNat := by
  obtain ⟨-, -, -, hcur, -⟩ := h
  rw [insertSample_fill_toNat] at hf ⊢
  rw [insertSample_cur_toNat]
  have := hcur (by omega)
  omega

/-- The slots from FILL on are 0 (R26 (ii)); with a full window there is none. -/
theorem insertSample_slot_eq_zero (j : Fin 32) (hj : (insertSample d s).fill.toNat ≤ j.val) :
    (insertSample d s).buf[j] = 0#16 := by
  obtain ⟨-, -, -, hcur, hzero, -⟩ := h
  rw [insertSample_fill_toNat] at hj
  have hfill : s.fill.toNat < 32 := by omega
  have hne : s.cur.toNat ≠ j.val := by have := hcur hfill; omega
  rw [insertSample_slot, if_neg hne]
  exact hzero hfill j (by omega)

/-- The new sum is at most FILL samples of 16 bits. -/
theorem bufSum_insertSample_le : bufSum (insertSample d s) ≤ (insertSample d s).fill.toNat * 65535 :=
  bufSum_le _ _ (insertSample_slot_eq_zero d s h)

/-- SUMR is the new slots' sum: it fits the register (R22). -/
theorem insertSample_sumr_toNat : (insertSample d s).sumr.toNat = bufSum (insertSample d s) := by
  have hle := bufSum_insertSample_le d s h
  rw [insertSample_fill_toNat] at hle
  show (BitVec.ofInt 21 _).toNat = _
  rw [insertSample_exactSum d s h, BitVec.ofInt_natCast, BitVec.toNat_ofNat]
  exact Nat.mod_eq_of_lt (by omega)

/-- AVGR is the truncated mean: it fits the register (R25, R26 (iii)). -/
theorem insertSample_avgr_toNat :
    (insertSample d s).avgr.toNat = bufSum (insertSample d s) / (insertSample d s).fill.toNat := by
  have hle := Nat.div_le_of_le_mul (bufSum_insertSample_le d s h)
  rw [insertSample_fill_toNat] at hle ⊢
  show (BitVec.ofInt 16 (_ / ((min (s.fill.toNat + 1) 32 : Nat) : Int))).toNat = _
  rw [insertSample_exactSum d s h, ← Int.natCast_ediv, BitVec.ofInt_natCast, BitVec.toNat_ofNat]
  exact Nat.mod_eq_of_lt (by omega)

/-- SAMPLE keeps the AVG unit's invariant (R102). -/
theorem insertSample_avgInv (hd : d.toNat < 2 ^ s.params.sampleW) : AvgInv (insertSample d s) := by
  have hfill := insertSample_fill_toNat d s
  refine ⟨insertSample_slot_lt d s h hd, insertSample_sumr_toNat d s h, by omega,
    insertSample_cur_eq_fill d s h, fun _ => insertSample_slot_eq_zero d s h, ?_⟩
  rw [if_neg (by omega), insertSample_sumr_toNat d s h]
  exact insertSample_avgr_toNat d s h

end Insert

/-! ## The other steps -/

/-- The AVG unit's five registers are the same in both states. -/
structure SameAverager (s t : State) : Prop where
  buf : t.buf = s.buf
  sumr : t.sumr = s.sumr
  cur : t.cur = s.cur
  fill : t.fill = s.fill
  avgr : t.avgr = s.avgr

/-- The invariant speaks of the five registers and `SAMPLE_W` alone. -/
theorem SameAverager.avgInv {s t : State} (h : SameAverager s t) (hp : t.params = s.params) (hs : AvgInv s) :
    AvgInv t := by
  obtain ⟨hbuf, hsumr, hcur, hfill, havgr⟩ := h
  simpa only [AvgInv, bufSum, hbuf, hsumr, hcur, hfill, havgr, hp] using hs

/-- A CMD word does not touch the AVG unit. -/
theorem displayCommand_sameAverager (c : Option Command) (s : State) (inputs : List Input) :
    SameAverager s (displayCommand c { s with inputs := inputs }) := by
  constructor <;> simp

/-- A sequencer event does not touch the AVG unit. -/
theorem advance_perform_sameAverager (it : Item) (items : List Item) (ev : WireEvent) (s : State)
    (inputs : List Input) : SameAverager s (advance it items (perform ev { s with inputs := inputs })) := by
  constructor <;> simp

/-- The registers' reset values have the invariant (R26, R48). -/
theorem avgInv_resetWith (p : Params) : AvgInv (State.resetWith p) := by
  refine ⟨fun j => ?slots, ?sum, Nat.zero_le 32, fun _ => rfl, fun _ j _ => ?zeros, rfl⟩
  case slots => simp [State.resetWith]
  case sum => rfl
  case zeros => simp [State.resetWith]

/-- Settles O11: a sample by `insertSample_avgInv`, reset by its values; no other step writes the unit. -/
theorem stepKeepsAveragerInvariant : Obligations.StepKeepsAveragerInvariant := by
  intro s t h hstep
  cases step_effect s t hstep with
  | spared => exact h
  | sampled d rest hin hd =>
    exact insertSample_avgInv _ { s with inputs := rest } h (lt_of_le_of_lt (Nat.mod_le _ _) hd)
  | commanded => exact (displayCommand_sameAverager _ s _).avgInv (by simp) h
  | sequenced => exact (advance_perform_sameAverager _ _ _ s _).avgInv (by simp) h
  | wasReset => exact avgInv_resetWith s.params

/-- Settles O13: of the five effects of a step only a sample and a reset touch the unit. -/
theorem onlySampleAndResetWriteTheAverager : Obligations.OnlySampleAndResetWriteTheAverager := by
  intro s t hstep hsample hreset
  have hsame : SameAverager s t := by
    cases step_effect s t hstep with
    | spared => exact ⟨rfl, rfl, rfl, rfl, rfl⟩
    | sampled d rest hin => exact absurd hin (hsample d rest)
    | commanded => exact displayCommand_sameAverager _ s _
    | sequenced => exact advance_perform_sameAverager _ _ _ s _
    | wasReset during rest acks resp hin => exact absurd hin (hreset during rest)
  exact ⟨hsame.buf, hsame.sumr, hsame.cur, hsame.fill, hsame.avgr⟩

end Sys2Proof.Machine
end

section
/-! SUPPORT. The sequencer and the lines: an event, and the end of an item, keep their invariant (R34, R91, R190-R197). -/

namespace Sys2Proof.Machine

/-! ## The lines along an item's events -/

/-- The clock level after two runs of events. -/
theorem clkAfter_append (l : Bool) (es es' : List WireEvent) :
    clkAfter l (es ++ es') = clkAfter (clkAfter l es) es' := by
  induction es generalizing l with
  | nil => rfl
  | cons e es ih => cases e <;> exact ih _

/-- The data pin's mode after two runs of events. -/
theorem dioAfter_append (m : DioMode) (es es' : List WireEvent) :
    dioAfter m (es ++ es') = dioAfter (dioAfter m es) es' := by
  induction es generalizing m with
  | nil => rfl
  | cons e es ih => cases e <;> exact ih _

/-- An event drives CLK as its list says (R195). -/
theorem perform_clkLvl (ev : WireEvent) (s : State) : (perform ev s).clkLvl = clkAfter s.clkLvl [ev] := by
  cases ev <;> simp [perform, clkAfter]

/-- An event drives DIO as its list says (R195). -/
theorem perform_dioMode (ev : WireEvent) (s : State) : (perform ev s).dioMode = dioAfter s.dioMode [ev] := by
  cases ev <;> simp [perform, dioAfter]

/-- Only a READ judges an ack (R196). -/
theorem perform_ackok_of_ne_read (ev : WireEvent) (s : State) (h : ev ≠ .read) :
    (perform ev s).ackok = s.ackok := by
  cases ev
  case read => exact absurd rfl h
  all_goals rfl

/-- The clock level an item begins at: a START idle, a BYTE or STOP low (R192, R194, R197). -/
def Item.clkStart : Item → Bool
  | .start => true
  | .byte _ | .stop => false

/-- The pin modes an item can begin at: a START idle, a BYTE or STOP any (R192, R194, R197). -/
def Item.dioStarts : Item → List DioMode
  | .start => [.out1]
  | .byte _ | .stop => [.out0, .out1, .released]

/-- The lines are where the events `past` of the item `it` leave them. -/
def LinesAfter (it : Item) (past : List WireEvent) (s : State) : Prop :=
  s.clkLvl = clkAfter it.clkStart past ∧ ∃ m ∈ it.dioStarts, s.dioMode = dioAfter m past

/-- The model's test of the lines is `LinesAfter` of the events done. -/
theorem linesAt_iff (it : Item) (s : State) :
    linesAt it s = true ↔ LinesAfter it ((events it s.ackok).take s.k) s := by
  cases it <;> simp [linesAt, LinesAfter, Item.clkStart, Item.dioStarts]

/-- One more event, one more on the lines (R195). -/
theorem LinesAfter.perform {it : Item} {past : List WireEvent} {s : State} (h : LinesAfter it past s)
    (ev : WireEvent) : LinesAfter it (past ++ [ev]) (perform ev s) := by
  obtain ⟨hclk, m, hm, hdio⟩ := h
  refine ⟨?_, m, hm, ?_⟩
  · rw [perform_clkLvl, hclk, clkAfter_append]
  · rw [perform_dioMode, hdio, dioAfter_append]

/-- Every mode is one that a BYTE or a STOP can begin at. -/
theorem mem_dioStarts_of_ne_start (it : Item) (h : it ≠ .start) (m : DioMode) : m ∈ it.dioStarts := by
  cases it
  case start => exact absurd rfl h
  all_goals cases m <;> simp [Item.dioStarts]

/-- The clock is low after the last event of a START or BYTE, and high after a STOP's (R192, R194, R197). -/
theorem clkAfter_events (it : Item) (ackok : Bool) :
    clkAfter it.clkStart (events it ackok) = decide (it = .stop) := by
  cases it <;> cases ackok <;> rfl

/-- A STOP ends with DIO driven high (R197). -/
theorem dioAfter_events_stop (m : DioMode) (ackok : Bool) : dioAfter m (events .stop ackok) = .out1 := rfl

/-! ## The place of the READ -/

/-- The data phase holds no READ (R193). -/
theorem read_not_mem_dataPhase (b : Byte) : WireEvent.read ∉ dataPhase b := by simp [dataPhase, bitSlot]

/-- The READ is the event 5 of the ack phase (R194). -/
theorem getElem?_ackPhase_eq_read (ackok : Bool) (j : Nat) (h : (ackPhase ackok)[j]? = some .read) : j = 5 := by
  have hread : ∀ (a : Bool) (j : Fin 11), (ackPhase a)[j.val]? = some .read → j.val = 5 := by decide
  have hlen : (ackPhase ackok).length ≤ 11 := by cases ackok <;> decide
  exact hread ackok ⟨j, (List.getElem?_eq_some_iff.1 h).1.trans_le hlen⟩ h

/-- The one READ of an item is the event 53 of a BYTE (R194). -/
theorem getElem?_events_eq_read (it : Item) (ackok : Bool) (k : Nat) (h : (events it ackok)[k]? = some .read) :
    (∃ b, it = .byte b) ∧ k = 53 := by
  cases it with
  | start => exact absurd (List.mem_of_getElem? h) (by simp [events])
  | stop => exact absurd (List.mem_of_getElem? h) (by simp [events])
  | byte b =>
    refine ⟨⟨b, rfl⟩, ?_⟩
    have hlen := dataPhase_length b
    by_cases hk : k < (dataPhase b).length
    · rw [events, List.getElem?_append_left hk] at h
      exact absurd (List.mem_of_getElem? h) (read_not_mem_dataPhase b)
    · rw [events, List.getElem?_append_right (Nat.le_of_not_lt hk)] at h
      have := getElem?_ackPhase_eq_read ackok _ h
      omega

/-- A BYTE's events up to the READ do not depend on its answer (R194). -/
theorem take_events_byte (b : Byte) (a a' : Bool) : (events (.byte b) a).take 54 = (events (.byte b) a').take 54 := by
  cases a <;> cases a' <;> rfl

/-! ## The sequencer's place -/

/-- The sequencer at an event of the item `it`: `K` is the event's index, `ACKOK` is 0 up to the READ, and the lines are
where the events done leave them (R32, R190). -/
structure AtEvent (it : Item) (s : State) : Prop where
  index : s.k < (events it s.ackok).length
  ackok : s.k < 54 → s.ackok = false
  lines : LinesAfter it ((events it s.ackok).take s.k) s

/-- The idle sequencer: cleared registers and idle lines (R34, R48). -/
structure AtRest (s : State) : Prop where
  k : s.k = 0
  ackok : s.ackok = false
  clk : s.clkLvl = true
  dio : s.dioMode = .out1

/-- The model's test of the place with PROG empty. -/
theorem seqPlace_nil (s : State) (h : s.prog = []) : seqPlace s = true ↔ AtRest s := by
  simp only [seqPlace, h, decide_eq_true_eq]
  exact ⟨fun ⟨hk, ha, hc, hd⟩ => ⟨hk, ha, hc, hd⟩, fun ⟨hk, ha, hc, hd⟩ => ⟨hk, ha, hc, hd⟩⟩

/-- The model's test of the place at an item. -/
theorem seqPlace_cons (s : State) (it : Item) (items : List Item) (h : s.prog = it :: items) :
    seqPlace s = true ↔ AtEvent it s := by
  simp only [seqPlace, h, Bool.and_eq_true, decide_eq_true_eq, linesAt_iff]
  exact ⟨fun ⟨⟨hk, ha⟩, hl⟩ => ⟨hk, ha, hl⟩, fun ⟨hk, ha, hl⟩ => ⟨⟨hk, ha⟩, hl⟩⟩

/-- Every item has events (R190). -/
theorem events_length_pos (it : Item) (ackok : Bool) : 0 < (events it ackok).length := by
  cases it with
  | start => simp
  | stop => simp
  | byte b => rw [events_byte_length]; split <;> decide

/-- An item can begin where the lines are as it begins. -/
theorem AtEvent.of_start (it : Item) (s : State) (hk : s.k = 0) (ha : s.ackok = false)
    (hclk : s.clkLvl = it.clkStart) (hdio : s.dioMode ∈ it.dioStarts) : AtEvent it s where
  index := by rw [hk]; exact events_length_pos it s.ackok
  ackok := fun _ => ha
  lines := by rw [hk]; exact ⟨hclk, s.dioMode, hdio, rfl⟩

/-- The events done, and the next one. -/
theorem take_append_of_getElem? {α : Type} {l : List α} {k : Nat} {x : α} (h : l[k]? = some x) :
    l.take k ++ [x] = l.take (k + 1) := by
  rw [List.take_add_one, h, Option.toList_some]

/-- An event that does not end its item leaves the sequencer at the next one. -/
theorem AtEvent.perform_next {it : Item} {s : State} {ev : WireEvent} (h : AtEvent it s)
    (hev : (events it s.ackok)[s.k]? = some ev) (hlast : s.k + 1 ≠ (events it (perform ev s).ackok).length) :
    AtEvent it { perform ev s with k := s.k + 1 } := by
  have hlines := h.lines.perform ev
  rw [take_append_of_getElem? hev] at hlines
  by_cases hr : ev = .read
  · subst hr
    obtain ⟨⟨b, rfl⟩, hk⟩ := getElem?_events_eq_read it _ _ hev
    rw [hk] at hlines ⊢
    refine ⟨?_, fun h54 => absurd (show 54 < 54 from h54) (Nat.lt_irrefl 54), ?_⟩
    · show 54 < (events (.byte b) _).length
      rw [events_byte_length]
      split <;> decide
    · show LinesAfter _ ((events (.byte b) _).take 54) _
      rw [take_events_byte b _ s.ackok]
      exact hlines
  · have ha := perform_ackok_of_ne_read ev s hr
    have hidx := h.index
    rw [ha] at hlast
    refine ⟨?_, ?_, ?_⟩
    · show s.k + 1 < (events it (perform ev s).ackok).length
      rw [ha]; omega
    · intro h54
      exact ha.trans (h.ackok (Nat.lt_of_succ_lt h54))
    · show LinesAfter it ((events it (perform ev s).ackok).take (s.k + 1)) _
      rw [ha]
      exact hlines

/-- After its last event the lines are where the whole item leaves them. -/
theorem AtEvent.lines_of_last {it : Item} {s : State} {ev : WireEvent} (h : AtEvent it s)
    (hev : (events it s.ackok)[s.k]? = some ev) (hlast : s.k + 1 = (events it (perform ev s).ackok).length) :
    LinesAfter it (events it s.ackok) (perform ev s) := by
  have hr : ev ≠ .read := by
    rintro rfl
    obtain ⟨⟨b, rfl⟩, hk⟩ := getElem?_events_eq_read it _ _ hev
    rw [hk, events_byte_length] at hlast
    split at hlast <;> omega
  rw [perform_ackok_of_ne_read ev s hr] at hlast
  have hlines := h.lines.perform ev
  rwa [take_append_of_getElem? hev, hlast, List.take_length] at hlines

/-! ## The order of the items -/

/-- The rest of a lawful PROG is lawful. -/
theorem progShape_tail (it : Item) (items : List Item) (h : progShape (it :: items) = true) :
    progShape items = true := by
  cases items with
  | nil => rfl
  | cons it' items =>
    simp only [progShape, Bool.and_eq_true] at h
    exact h.2

/-- Data bytes and what lawfully follows a byte make a lawful PROG (R91). -/
theorem progShape_bytes (b : Byte) (cells : List Byte) (rest : List Item) :
    progShape (.byte b :: (cells.map Item.byte ++ .stop :: rest)) = progShape (.stop :: rest) := by
  induction cells generalizing b with
  | nil => rfl
  | cons c cells ih => exact ih c

/-- The wire program of a command is lawful: each transaction opens with a command byte (R91, R163). -/
theorem progShape_wireProgram (c : Command) (s : State) : progShape (wireProgram (latch c s)) = true := by
  have hmode : (decodeTm (commandMode c)).isSome = true := by cases c <;> rfl
  have haddr : ∀ pos : BitVec 2, (decodeTm (addrByte pos)).isSome = true := by decide
  have hdisp : ∀ level : BitVec 3, (decodeTm (dispByte level)).isSome = true := by decide
  simp only [wireProgram, latch, progShape, Item.mayPrecede, hmode, haddr, Bool.true_and,
    progShape_bytes, hdisp]
  decide

/-- After a STOP, and nowhere else, comes a START (R91). -/
theorem eq_start_iff_of_mayPrecede (a b : Item) (h : a.mayPrecede b = true) : b = .start ↔ a = .stop := by
  cases a <;> cases b <;> simp_all [Item.mayPrecede]

/-- After a START comes a command byte (R91). -/
theorem exists_commandByte_of_start_mayPrecede (b : Item) (h : Item.start.mayPrecede b = true) :
    ∃ c, b = .byte c ∧ (decodeTm c).isSome = true := by
  cases b with
  | byte c => exact ⟨c, rfl, h⟩
  | start => cases h
  | stop => cases h

/-- An item ends where the one that may follow it can begin (R192, R197). -/
theorem LinesAfter.handover {a b : Item} {ackok : Bool} {s : State} (h : LinesAfter a (events a ackok) s)
    (hab : a.mayPrecede b = true) : s.clkLvl = b.clkStart ∧ s.dioMode ∈ b.dioStarts := by
  obtain ⟨hclk, m, -, hdio⟩ := h
  rw [clkAfter_events] at hclk
  have hiff := eq_start_iff_of_mayPrecede a b hab
  by_cases hb : b = .start
  · obtain rfl := hiff.1 hb
    subst hb
    exact ⟨hclk, by simp [hdio, dioAfter_events_stop, Item.dioStarts]⟩
  · refine ⟨?_, mem_dioStarts_of_ne_start b hb _⟩
    rw [hclk, decide_eq_false (mt hiff.2 hb)]
    cases b
    case start => exact absurd rfl hb
    all_goals rfl

/-! ## The whole invariant -/

/-- Without the mark of a command byte nothing is asked of the head. -/
theorem firstByteLawful_of_false (s : State) (h : s.firstByte = false) : firstByteLawful s = true := by
  simp [firstByteLawful, h]

/-- The mark is lawful on a command byte (R89, R91). -/
theorem firstByteLawful_of_commandByte (s : State) (b : Byte) (items : List Item) (h : s.prog = .byte b :: items)
    (hb : (decodeTm b).isSome = true) : firstByteLawful s = true := by
  simp [firstByteLawful, h, hb]

/-- The invariant with PROG empty. -/
theorem wireInv_nil (s : State) (h : s.prog = []) : WireInv s ↔ s.firstByte = false ∧ AtRest s := by
  simp [WireInv, seqPlace_nil s h, firstByteLawful, h, progShape]

/-- The event that ends its item leaves the next item at its start, or the sequencer at rest (R190). -/
theorem wireInv_of_item_ended (it : Item) (items : List Item) (t : State) (ackok : Bool)
    (hshape : progShape (it :: items) = true) (hlines : LinesAfter it (events it ackok) t)
    (hprog : t.prog = items) (hk : t.k = 0) (ha : t.ackok = false) (hfirst : t.firstByte = decide (it = .start)) :
    WireInv t := by
  cases items with
  | nil =>
    have hstop : it = .stop := of_decide_eq_true hshape
    subst hstop
    obtain ⟨hclk, m, -, hdio⟩ := hlines
    exact (wireInv_nil t hprog).2 ⟨hfirst, hk, ha, hclk, hdio⟩
  | cons next items =>
    have hnext : it.mayPrecede next = true := by
      simp only [progShape, Bool.and_eq_true] at hshape
      exact hshape.1
    obtain ⟨hclk, hdio⟩ := hlines.handover hnext
    refine ⟨hprog ▸ progShape_tail it _ hshape, ?_,
      (seqPlace_cons t next items hprog).2 (.of_start next t hk ha hclk hdio)⟩
    by_cases hit : it = .start
    · subst hit
      obtain ⟨b, rfl, hb⟩ := exists_commandByte_of_start_mayPrecede next hnext
      exact firstByteLawful_of_commandByte t b items hprog hb
    · exact firstByteLawful_of_false t (by rw [hfirst, decide_eq_false hit])

/-- A sequencer event keeps the invariant (R190). -/
theorem advance_perform_wireInv (it : Item) (items : List Item) (ev : WireEvent) (s : State) (h : WireInv s)
    (hp : s.prog = it :: items) (hev : (events it s.ackok)[s.k]? = some ev) :
    WireInv (advance it items (perform ev s)) := by
  obtain ⟨hshape, hfirst, hplace⟩ := h
  have hat := (seqPlace_cons s it items hp).1 hplace
  unfold advance
  rw [perform_k]
  split
  · rename_i hlast
    exact wireInv_of_item_ended it items _ s.ackok (hp ▸ hshape) (hat.lines_of_last hev hlast) rfl rfl rfl rfl
  · rename_i hlast
    refine ⟨?_, ?_, (seqPlace_cons _ it items (by simp [hp])).2 (hat.perform_next hev hlast)⟩
    · simpa using hshape
    · simpa [firstByteLawful] using hfirst

/-- Acceptance starts its program from idle lines (R163, R192). -/
theorem accept_wireInv (c : Command) (s : State) (h : WireInv s) (hp : s.prog = []) : WireInv (accept c s) := by
  obtain ⟨-, -, -, hclk, hdio⟩ := (wireInv_nil s hp).1 h
  refine ⟨progShape_wireProgram c s, firstByteLawful_of_false _ rfl, (seqPlace_cons _ .start _ rfl).2 ?_⟩
  exact .of_start .start _ rfl rfl hclk (by simp [hdio, Item.dioStarts])

/-- A CMD word keeps the invariant: a rejected one leaves the sequencer alone (R162-R164). -/
theorem displayCommand_wireInv (c : Option Command) (s : State) (h : WireInv s) : WireInv (displayCommand c s) := by
  obtain ⟨-, hd⟩ | ⟨-, -, hd⟩ | ⟨hp, c', -, -, hd⟩ := displayCommand_cases c s
  · rw [hd]; exact h
  · rw [hd]; exact h
  · rw [hd]; exact accept_wireInv c' s h hp

/-- The sequencer's reset values have the invariant (R34, R48). -/
theorem wireInv_resetWith (p : Params) : WireInv (State.resetWith p) :=
  (wireInv_nil _ rfl).2 ⟨rfl, rfl, rfl, rfl, rfl⟩

/-- Settles O41: an event by `advance_perform_wireInv`, a CMD write by `displayCommand_wireInv`, reset by its values; no
other step touches the sequencer or the lines. -/
theorem stepKeepsWireInvariant : Obligations.StepKeepsWireInvariant := by
  intro s t h hstep
  cases step_effect s t hstep with
  | spared => exact h
  | sampled => exact h
  | commanded w rest => exact displayCommand_wireInv _ { s with inputs := rest } h
  | sequenced inputs hm it items ev hp hev =>
    exact advance_perform_wireInv it items ev { s with inputs := inputs } h hp hev
  | wasReset => exact wireInv_resetWith s.params

end Sys2Proof.Machine
end

section
/-! SUPPORT. SNAP's shape, TRACE, and the two sticky flags along a step (R31, R33, R40, R161-R164, R255). -/

namespace Sys2Proof.Machine

/-! ## What an accepted command latches (R163) -/

/-- The digit loop writes cells and adds none (R136). -/
theorem digitLoop_length (q : Params) (neg lz : Bool) (p a : Nat) (c : List Byte) :
    (digitLoop q neg lz p a c).1.length = c.length := by
  induction p generalizing a c with
  | zero => simp [digitLoop]
  | succ p ih =>
    simp only [digitLoop]
    split
    · simp
    · rw [ih, List.length_set]

/-- A rendered number has four cells (R136). -/
theorem renderCells_length (q : Params) (v : Int) (lz : Bool) : (renderCells q v lz).length = 4 := by
  unfold renderCells
  split
  · rfl
  · have hloop := digitLoop_length q (decide (v < 0)) lz 3 v.natAbs [0#8, 0#8, 0#8, 0#8]
    dsimp only
    split
    · rename_i c p hc
      rw [hc] at hloop
      split <;> simpa using hloop
    · rename_i c hc
      rw [hc] at hloop
      simpa using hloop

/-- Every command latches one to four cells (R163). -/
theorem commandCells_length (s : State) (c : Command) :
    1 ≤ (commandCells s c).length ∧ (commandCells s c).length ≤ 4 := by
  cases c with
  | clear => exact ⟨by simp [commandCells], by simp [commandCells]⟩
  | renderDigits => exact ⟨by simp [commandCells, lanes], by simp [commandCells, lanes]⟩
  | renderNumber lz => simp [commandCells, renderCells_length]
  | display pos lenm1 =>
    have hlt := lenm1.isLt
    simp only [commandCells, List.length_map, List.length_range]
    omega
  | writeFixed pos => exact ⟨by simp [commandCells], by simp [commandCells]⟩

/-- Every command latches one of the two mode bytes (R163). -/
theorem commandMode_cases (c : Command) : commandMode c = Config.cmdAuto ∨ commandMode c = Config.cmdFixed := by
  cases c with
  | writeFixed pos => exact .inr rfl
  | clear | renderDigits | renderNumber | display => exact .inl rfl

/-- A CMD word keeps SNAP's shape (R31, R163). -/
theorem displayCommand_snapInv (c : Option Command) (s : State) (h : SnapInv s) : SnapInv (displayCommand c s) := by
  obtain ⟨-, hd⟩ | ⟨-, -, hd⟩ | ⟨-, c', -, -, hd⟩ := displayCommand_cases c s
  · rw [hd]; exact h
  · rw [hd]; exact h
  · rw [hd]; exact ⟨commandMode_cases c', commandCells_length s c'⟩

/-- SNAP's value at reset has its shape (log entry 5). -/
theorem snapInv_resetWith (p : Params) : SnapInv (State.resetWith p) :=
  ⟨.inl rfl, (by decide : 1 ≤ resetSnap.cells.length), (by decide : resetSnap.cells.length ≤ 4)⟩

/-- Settles O42: only a CMD write and reset write SNAP. -/
theorem stepKeepsSnapShape : Obligations.StepKeepsSnapShape := by
  intro s t h hstep
  cases step_effect s t hstep with
  | spared => exact h
  | sampled => exact h
  | commanded w rest => exact displayCommand_snapInv _ { s with inputs := rest } h
  | sequenced => simpa only [SnapInv, advance_snap, perform_snap] using h
  | wasReset => exact snapInv_resetWith s.params

/-! ## TRACE (R40) -/

/-- Settles O46: a sequencer event appends its entry and reset its marker; no other step touches TRACE. -/
theorem traceIsAppendOnly : Obligations.TraceIsAppendOnly := by
  intro s t hstep
  cases step_effect s t hstep with
  | spared => exact ⟨⟨[], (List.append_nil _).symm⟩, rfl⟩
  | sampled => exact ⟨⟨[], (List.append_nil _).symm⟩, rfl⟩
  | commanded => exact ⟨⟨[], by simp⟩, by simp⟩
  | sequenced inputs hm it items ev =>
    obtain ⟨e, he⟩ := perform_trace ev { s with inputs := inputs }
    exact ⟨⟨[e], by rw [advance_trace, he]⟩, by simp⟩
  | wasReset => exact ⟨⟨[.idle], rfl⟩, rfl⟩

/-! ## NACK and CMDERR (R33, R255) -/

/-- No event clears NACK (R196). -/
theorem perform_nack_of_nack (ev : WireEvent) (s : State) (h : s.nack = true) : (perform ev s).nack = true := by
  cases ev <;> simp [perform, h]

/-- The decoder of CMD words answers legal commands only (R87 (b), R88). -/
theorem decodeCmd_legal (w : Word) (c : Command) (h : decodeCmd w = some c) : c.legal = true := by
  unfold decodeCmd at h
  rcases of_ite_some h with ⟨-, rfl⟩ | h
  · rfl
  rcases of_ite_some h with ⟨-, rfl⟩ | h
  · rfl
  rcases of_ite_some h with ⟨-, rfl⟩ | h
  · rfl
  split at h
  · rcases of_ite_some h with ⟨hl, rfl⟩ | h
    · exact hl
    · cases h
  · rcases of_ite_some h with ⟨-, rfl⟩ | h
    · rfl
    · cases h

/-- A wire program is not empty (R163). -/
theorem wireProgram_ne_nil (sn : Snap) : wireProgram sn ≠ [] := List.cons_ne_nil _ _

/-- A CMD word is rejected, while BUSY or as illegal, or starts a command from the idle state (R161-R164). -/
theorem displayCommand_decodeCmd (w : Word) (s : State) :
    ((s.prog ≠ [] ∨ decodeCmd w = none) ∧ displayCommand (decodeCmd w) s = complete (rejectCommand s))
      ∨ (s.prog = [] ∧ (displayCommand (decodeCmd w) s).prog ≠ []
          ∧ (displayCommand (decodeCmd w) s).cmderr = false) := by
  obtain ⟨hp, hd⟩ | ⟨-, hill, hd⟩ | ⟨hp, c, -, -, hd⟩ := displayCommand_cases (decodeCmd w) s
  · exact .inl ⟨.inl hp, hd⟩
  · refine .inl ⟨.inr (Option.eq_none_iff_forall_ne_some.2 fun c hc => ?_), hd⟩
    exact absurd (decodeCmd_legal w c hc) (by simp [hill c hc])
  · exact .inr ⟨hp, by rw [hd]; exact wireProgram_ne_nil _, by rw [hd]; rfl⟩

/-- Settles O47: a READ only raises NACK, and a rejected CMD word leaves it. -/
theorem nackIsClearedOnlyByAcceptance : Obligations.NackIsClearedOnlyByAcceptance := by
  intro s t hstep hs ht
  cases step_effect s t hstep with
  | spared => cases hs.symm.trans ht
  | sampled => cases hs.symm.trans ht
  | commanded w rest hin =>
    obtain ⟨-, hrej⟩ | ⟨hp, hstart, -⟩ := displayCommand_decodeCmd w { s with inputs := rest }
    · rw [hrej] at ht
      cases hs.symm.trans ht
    · exact .inr ⟨hp, hstart, w, rest, hin⟩
  | sequenced inputs hm it items ev =>
    rw [advance_nack] at ht
    cases (perform_nack_of_nack ev { s with inputs := inputs } hs).symm.trans ht
  | wasReset during rest acks resp hin => exact .inl ⟨during, rest, hin⟩

/-- A flag that keeps its value neither falls nor rises, so whatever is claimed of its changes holds. -/
theorem flag_changes_of_eq {a b : Bool} {P Q : Prop} (h : b = a) :
    (a = true → b = false → P) ∧ (a = false → b = true → Q) := by
  subst h
  cases b <;> simp

/-- Settles O48: only a CMD write and reset touch CMDERR; the write sets it when rejected and clears it when accepted. -/
theorem cmderrFollowsTheCommandWrites : Obligations.CmderrFollowsTheCommandWrites := by
  intro s t hstep
  cases step_effect s t hstep with
  | spared => exact flag_changes_of_eq rfl
  | sampled => exact flag_changes_of_eq rfl
  | commanded w rest hin =>
    obtain ⟨hwhy, hrej⟩ | ⟨hp, hstart, hclear⟩ := displayCommand_decodeCmd w { s with inputs := rest }
    · refine ⟨fun _ ht => absurd ht (by simp [hrej]), fun _ _ => ⟨⟨w, ⟨rest, hin⟩, hwhy⟩, ?_⟩⟩
      rw [hrej, hin]
      rfl
    · exact ⟨fun _ _ => .inr ⟨hp, hstart, w, rest, hin⟩, fun _ ht => absurd ht (by simp [hclear])⟩
  | sequenced => exact flag_changes_of_eq (by simp)
  | wasReset during rest acks resp hin =>
    exact ⟨fun _ _ => .inl ⟨during, rest, hin⟩, fun _ ht => absurd ht Bool.false_ne_true⟩

end Sys2Proof.Machine
end

section
/-! SUPPORT. The STATUS word as a number, and the reset state (R35, R37, R48, R109, R240). -/

namespace Sys2Proof.Machine

/-- Concatenation puts its first part above the bits of its second. -/
theorem toNat_append_eq {m n : Nat} (x : BitVec m) (y : BitVec n) : (x ++ y).toNat = x.toNat * 2 ^ n + y.toNat := by
  rw [BitVec.toNat_append, ← Nat.shiftLeft_add_eq_or_of_lt y.isLt, Nat.shiftLeft_eq]

/-- BUSY as a number (R33). -/
theorem busy_toNat (s : State) : s.busy.toNat = if s.prog = [] then 0 else 1 := by
  unfold State.busy
  cases s.prog <;> rfl

/-- The fields of the STATUS word (R37). -/
theorem statusWord_toNat (s : State) :
    s.statusWord.toNat = s.busy.toNat + 2 * s.nack.toNat + 4 * s.cmderr.toNat + 256 * s.fill.toNat
      + 65536 * s.cur.toNat := by
  simp only [State.statusWord, toNat_append_eq, BitVec.toNat_ofBool, BitVec.toNat_ofNat]
  omega

/-- Settles O2: RD.STATUS answers the STATUS word. -/
theorem statusReadHasItsFields : Obligations.StatusReadHasItsFields := by
  intro s
  exact ⟨s.statusWord, rfl, by rw [statusWord_toNat, busy_toNat]⟩

/-- Settles O53, from the invariants' own lemmas about the reset values. -/
theorem resetHasTheInvariants : Obligations.ResetHasTheInvariants :=
  fun p => ⟨avgInv_resetWith p, wireInv_resetWith p, snapInv_resetWith p⟩

/-- Reset with nothing arriving meanwhile is the reset of the block (R240). -/
theorem step_reset_nil (s : State) (rest : List Input) :
    step { s with inputs := .reset [] :: rest } = .next (resetBlock { s with inputs := rest }) := rfl

/-- Settles O54: the step is `resetBlock`, whose fields are the reset values. -/
theorem resetStepGivesTheResetValues : Obligations.ResetStepGivesTheResetValues := by
  intro s rest
  refine ⟨_, step_reset_nil s rest, fun j => by simp, ?_⟩
  simp

/-- STATUS reads 0 after reset: no field of it is set (R37, R242). -/
theorem statusWord_resetWith (p : Params) : (State.resetWith p).statusWord = 0#32 :=
  BitVec.eq_of_toNat_eq (statusWord_toNat (State.resetWith p))

/-- Settles O55: each read answers its register, at its reset value. -/
theorem registersReadTheirResetValues : Obligations.RegistersReadTheirResetValues := by
  intro p i w h
  simp only [List.mem_cons, List.not_mem_nil, or_false, Prod.mk.injEq] at h
  obtain ⟨rfl, rfl⟩ | ⟨rfl, rfl⟩ | ⟨rfl, rfl⟩ | ⟨rfl, rfl⟩ | ⟨rfl, rfl⟩ | ⟨rfl, rfl⟩ | ⟨rfl, rfl⟩ | ⟨rfl, rfl⟩ := h
  case inr.inl => rw [← statusWord_resetWith p]; rfl
  all_goals rfl

end Sys2Proof.Machine
end

section
/-! SUPPORT. Host accesses: which the access check turns away, what the step of each is, and what the block's ports take
while reset is asserted (R61-R63, R68, R222, R241). -/

namespace Sys2Proof.Machine

/-! ## The access check -/

/-- OFF as a number (R81). -/
theorem off_toNat (a : Access) : a.off.toNat = a.desc.toNat % 256 := by
  simp [Access.off, BitVec.extractLsb'_toNat]

/-- OFF is the low byte of the descriptor (R81). -/
theorem off_eq_ofNat (a : Access) : a.off = BitVec.ofNat 8 a.desc.toNat :=
  BitVec.eq_of_toNat_eq (by rw [off_toNat, BitVec.toNat_ofNat])

/-- W is the top bit of the descriptor (R81). -/
theorem dir_eq (a : Access) : a.dir = if 256 ≤ a.desc.toNat then .write else .read := by
  have hmsb : a.desc.getLsbD 8 = decide (256 ≤ a.desc.toNat) :=
    (BitVec.msb_eq_getLsbD_last a.desc).symm.trans (BitVec.msb_eq_decide a.desc)
  simp only [Access.dir, hmsb, decide_eq_true_eq]

/-- The descriptors that have a row are the aligned ones of the window, whatever the write data (R82). -/
theorem decodeDescriptor_isSome (desc : BitVec 9) (data : Word) :
    (decodeDescriptor desc data).isSome = decide (desc.toNat % 256 < 32 ∧ desc.toNat % 4 = 0) := by
  have hdata : (decodeDescriptor desc data).isSome = (decodeDescriptor desc 0#32).isSome := by
    simp only [decodeDescriptor, apply_ite Option.isSome, Option.isSome_some]
  have hzero : ∀ desc : BitVec 9,
      (decodeDescriptor desc 0#32).isSome = decide (desc.toNat % 256 < 32 ∧ desc.toNat % 4 = 0) := by decide
  rw [hdata, hzero]

/-- An aligned word access of the window names an operation (R61, R82). -/
theorem exists_decodeBus_eq_instr (a : Access) (h : a.rejected = none) : ∃ i, decodeBus a = .instr i := by
  obtain ⟨hw, -, ha⟩ := (Access.rejected_eq_none a).1 h
  have hrow : (decodeDescriptor a.desc a.data).isSome = true := by
    rw [off_toNat] at hw ha
    rw [decodeDescriptor_isSome, decide_eq_true_eq]
    exact ⟨hw, by omega⟩
  obtain ⟨i, hi⟩ := Option.isSome_iff_exists.1 hrow
  exact ⟨i, decodeBus_of_row a i h hi⟩

/-- The decoder rejects a host access for the access check's reason, and for no other. -/
theorem decodeBus_eq_rejected_iff (a : Access) (r : Reject) : decodeBus a = .rejected r ↔ a.rejected = some r := by
  refine ⟨fun h => ?_, decodeBus_of_rejected a r⟩
  cases hr : a.rejected with
  | none =>
    obtain ⟨i, hi⟩ := exists_decodeBus_eq_instr a hr
    cases hi.symm.trans h
  | some r' =>
    cases (decodeBus_of_rejected a r' hr).symm.trans h
    rfl

/-- Outside the window the access check says so, whatever the size and the alignment (R68). -/
theorem rejected_of_outside (a : Access) (h : 32 ≤ a.desc.toNat % 256) :
    a.rejected = some (.outsideWindow a.off) := by
  rw [← off_toNat] at h
  exact if_pos h

/-- In the window an access that fails the check is answered with a bus error of its offset, size and direction
(R222). -/
theorem onReject_of_rejected (a : Access) (r : Reject) (hw : a.desc.toNat % 256 < 32) (hr : a.rejected = some r)
    (s : State) : onReject r s = .next (raiseBusError a.off a.n a.dir s) := by
  have hin : ¬Config.windowBytes ≤ a.off.toNat := by rwa [off_toNat, Nat.not_le]
  rw [Access.rejected, if_neg hin] at hr
  rcases of_ite_some hr with ⟨-, rfl⟩ | hr
  · rfl
  rcases of_ite_some hr with ⟨-, rfl⟩ | hr
  · rfl
  cases hr

/-! ## The step of a host access -/

/-- A host access that the decoder rejects does what its reason says. -/
theorem step_of_rejectedAccess (s : State) (rest : List Input) (a : Access) (r : Reject) (hr : a.rejected = some r) :
    step { s with inputs := .event (.host a) :: rest } = onReject r { s with inputs := rest } := by
  simp only [step, fetch, decode, decodeBus_of_rejected a r hr]

/-- An aligned word access of the window runs the operation of its row (R61, R82). -/
theorem step_of_registerAccess (dirBit : BitVec 1) (off : Byte) (data : Word) (i : Instr) (s : State)
    (rest : List Input) (hw : off.toNat < Config.windowBytes) (ha : off.toNat % 4 = 0)
    (hi : decodeDescriptor (dirBit ++ off) data = some i) :
    step { s with inputs := .event (.host ⟨dirBit ++ off, 4, data⟩) :: rest } = exec i { s with inputs := rest } := by
  have hoff : Access.off ⟨dirBit ++ off, 4, data⟩ = off := BitVec.extractLsb'_append_eq_right
  refine step_of_host _ _ rest i rfl (decodeBus_of_row _ i ((Access.rejected_eq_none _).2 ⟨?_, rfl, ?_⟩) hi)
  · rwa [hoff]
  · rwa [hoff]

/-- Settles O7: the access check fails, and names a bus error; or it passes, and the descriptor has a row. -/
theorem busErrorChangesNothingElse : Obligations.BusErrorChangesNothingElse := by
  intro s rest a hw
  have halign : a.off.toNat % 4 = a.desc.toNat % 4 := by rw [off_toNat]; omega
  refine ⟨fun hbad => ?_, fun hn ha => exists_decodeBus_eq_instr a ((Access.rejected_eq_none a).2 ?_)⟩
  · have hrej : a.rejected ≠ none := by
      rw [Ne, Access.rejected_eq_none, halign]
      rintro ⟨-, hn, ha⟩
      exact hbad.elim (· hn) (· ha)
    obtain ⟨r, hr⟩ := Option.ne_none_iff_exists'.1 hrej
    rw [step_of_rejectedAccess s rest a r hr, onReject_of_rejected a r hw hr, ← off_eq_ofNat, ← dir_eq]
    rfl
  · exact ⟨by rwa [off_toNat], hn, by rwa [halign]⟩

/-- Settles O1: each read's operation answers its register, and its row is the one the host access runs. -/
theorem hostReadsAnswerTheRegister : Obligations.HostReadsAnswerTheRegister := by
  intro s rest data off i v h
  have hread : exec i s = .next (respond v s)
      ∧ step { s with inputs := .event (.host ⟨0#1 ++ off, 4, data⟩) :: rest } = exec i { s with inputs := rest }
      ∧ exec i { s with inputs := rest } = .next (respond v { s with inputs := rest }) := by
    simp only [List.mem_cons, List.not_mem_nil, or_false, Prod.mk.injEq] at h
    obtain ⟨rfl, rfl, rfl⟩ | ⟨rfl, rfl, rfl⟩ | ⟨rfl, rfl, rfl⟩ | ⟨rfl, rfl, rfl⟩ | ⟨rfl, rfl, rfl⟩ | ⟨rfl, rfl, rfl⟩
      | ⟨rfl, rfl, rfl⟩ | ⟨rfl, rfl, rfl⟩ := h
    all_goals exact ⟨rfl, step_of_registerAccess _ _ _ _ _ _ (by decide) (by decide) rfl, rfl⟩
  obtain ⟨hop, hstep, hrun⟩ := hread
  exact ⟨hop, hstep.trans hrun⟩

/-- Settles O3: each of the three writes is `complete`, which sets the port's answer alone. -/
theorem readOnlyWritesAreIgnored : Obligations.ReadOnlyWritesAreIgnored := by
  intro s v
  exact ⟨rfl, rfl, rfl⟩

/-! ## While reset is asserted (R241) -/

/-- An event that the ports take is handled, and leaves all but the receiver's answers and the port's. -/
theorem underReset_cons (e : Event) (es : List Event) (s : State) (he : portsAccept s.params [e]) :
    ∃ (acks : List Bool) (resp : Response),
      underReset (e :: es) s = underReset es { s with acks := acks, resp := resp } := by
  obtain ⟨hhost, hsample⟩ := he
  cases e with
  | sample d =>
    have hd := (decodeSmp_eq_instr s.params d _).2 ⟨hsample d List.mem_cons_self, rfl⟩
    exact ⟨s.acks, s.resp, by simp only [underReset, hd]⟩
  | seq | seqAll => exact ⟨s.acks, s.resp, rfl⟩
  | ack r => exact ⟨s.acks ++ [r], s.resp, rfl⟩
  | host a =>
    cases hd : decodeBus a with
    | rejected r =>
      have hr := onReject_of_rejected a r (hhost a List.mem_cons_self) ((decodeBus_eq_rejected_iff a r).1 hd) s
      exact ⟨s.acks, _, by simp only [underReset, hd, hr]; rfl⟩
    | instr i =>
      cases hdir : a.dir with
      | write => exact ⟨s.acks, _, by simp only [underReset, hd, hdir]; rfl⟩
      | read =>
        obtain ⟨w, hw⟩ := decodeBus_read a i hdir hd s
        exact ⟨s.acks, _, by simp only [underReset, hd, hdir, hw]; rfl⟩

/-- Events that the ports take are handled one by one, before whatever follows them. -/
theorem underReset_append (before es : List Event) (s : State) (hb : portsAccept s.params before) :
    ∃ (acks : List Bool) (resp : Response),
      underReset (before ++ es) s = underReset es { s with acks := acks, resp := resp } := by
  induction before generalizing s with
  | nil => exact ⟨s.acks, s.resp, rfl⟩
  | cons e before ih =>
    obtain ⟨hhost, hsample⟩ := hb
    obtain ⟨acks, resp, he⟩ := underReset_cons e (before ++ es) s
      ⟨fun a ha => hhost a (List.mem_singleton.1 ha ▸ List.mem_cons_self),
        fun d hd => hsample d (List.mem_singleton.1 hd ▸ List.mem_cons_self)⟩
    obtain ⟨acks', resp', hrest⟩ := ih { s with acks := acks, resp := resp }
      ⟨fun a ha => hhost a (List.mem_cons_of_mem e ha), fun d hd => hsample d (List.mem_cons_of_mem e hd)⟩
    exact ⟨acks', resp', he.trans hrest⟩

/-- An access outside the window is refused among the events of a reset (R68, log entries 11, 13). -/
theorem underReset_outside (a : Access) (es : List Event) (s : State) (h : 32 ≤ a.desc.toNat % 256) :
    underReset (.host a :: es) s = .refused .outsideWindow := by
  simp only [underReset, decodeBus_of_rejected a _ (rejected_of_outside a h), onReject]

/-- Settles O8: the access check names the window first, and the events before the access leave the reset going. -/
theorem accessOutsideTheWindowIsRefused : Obligations.AccessOutsideTheWindowIsRefused := by
  intro s rest a h
  refine ⟨step_of_rejectedAccess s rest a _ (rejected_of_outside a h), fun before after hb => ?_⟩
  obtain ⟨acks, resp, hu⟩ := underReset_append before (.host a :: after) (resetBlock { s with inputs := rest }) hb
  exact hu.trans (underReset_outside a after _ h)

end Sys2Proof.Machine
end

section
/-! SUPPORT. The command in flight under other values of the host's registers: a step that leaves the host port and the
reset input alone reads none of DATA, VALUE, SEGCODE, LEVEL and the port's answer (R73, R250). -/

namespace Sys2Proof.Machine

/-- `s` with other values in the registers of the display unit that a host writes, and another answer of the port. -/
def withHostRegisters (data value segcode : Word) (level : BitVec 3) (resp : Response) (s : State) : State :=
  { s with data := data, value := value, segcode := segcode, level := level, resp := resp }

section Noninterference

variable (data value segcode : Word) (level : BitVec 3) (resp : Response)

/-! ## The sequencer (R190, R195) -/

/-- No event reads the host's registers (R195, R196). -/
theorem perform_withHostRegisters (ev : WireEvent) (s : State) :
    perform ev (withHostRegisters data value segcode level resp s)
      = withHostRegisters data value segcode level resp (perform ev s) := by
  cases ev with
  | clk | dio | dioRel | wait => rfl
  | read =>
    cases ha : s.acks with
    | nil =>
      rw [perform_read_free s ha]
      exact perform_read_free (withHostRegisters data value segcode level resp s) ha
    | cons r rs =>
      rw [perform_read_ack s r rs ha]
      exact perform_read_ack (withHostRegisters data value segcode level resp s) r rs ha

/-- Neither does the advance to the next event (R190). -/
theorem advance_withHostRegisters (it : Item) (items : List Item) (s : State) :
    advance it items (withHostRegisters data value segcode level resp s)
      = withHostRegisters data value segcode level resp (advance it items s) := by
  unfold advance
  rw [apply_ite (withHostRegisters data value segcode level resp)]
  rfl

/-- Neither does a sequencer step. -/
theorem seqStep_withHostRegisters (s t : State) (h : seqStep s = .next t) :
    seqStep (withHostRegisters data value segcode level resp s)
      = .next (withHostRegisters data value segcode level resp t) := by
  rw [seqStep_next] at h ⊢
  obtain ⟨hp, rfl⟩ | ⟨it, items, ev, hp, hev, rfl⟩ := h
  · exact .inl ⟨hp, rfl⟩
  · refine .inr ⟨it, items, ev, hp, hev, ?_⟩
    rw [perform_withHostRegisters, advance_withHostRegisters]

end Noninterference

/-- A sequencer step leaves the schedule. -/
theorem seqStep_inputs (s t : State) (h : seqStep s = .next t) : t.inputs = s.inputs := by
  obtain ⟨-, rfl⟩ | ⟨it, items, ev, -, -, rfl⟩ := (seqStep_next s t).1 h
  · rfl
  · rw [advance_inputs, perform_inputs]

/-! ## One step without the host and reset -/

/-- The steps of the agents other than the host and reset: a sample, the sequencer's turn, a SEQ* entry that PROG leaves
nothing to do, and an ACK answer (R16, R94). -/
inductive AgentStep (s : State) : State → Prop
  | sampled (d : Nat) (rest : List Input) (hin : s.inputs = .event (.sample d) :: rest)
      (hd : d < 2 ^ s.params.sampleW) : AgentStep s (insertSample (BitVec.ofNat 16 d) { s with inputs := rest })
  | sequenced (inputs : List Input) (t : State) (hm : SequencerMoves s { s with inputs := inputs })
      (ht : seqStep { s with inputs := inputs } = .next t) : AgentStep s t
  | passed (rest : List Input) (hin : s.inputs = .event .seqAll :: rest) (hp : s.prog = []) :
      AgentStep s { s with inputs := rest }
  | acked (r : Bool) (rest : List Input) (hin : s.inputs = .event (.ack r) :: rest) :
      AgentStep s (queueAck r { s with inputs := rest })

/-- A sample at the head of the schedule is inserted when it fits (R102, R225). -/
theorem step_sample_eq_next (s t : State) (d : Nat) (rest : List Input)
    (hin : s.inputs = .event (.sample d) :: rest) :
    step s = .next t ↔ d < 2 ^ s.params.sampleW ∧ t = insertSample (BitVec.ofNat 16 d) { s with inputs := rest } := by
  by_cases hd : d < 2 ^ s.params.sampleW
  · have hfit : (BitVec.ofNat 16 d).toNat < 2 ^ s.params.sampleW := lt_of_le_of_lt (Nat.mod_le d _) hd
    rw [step_of_sample s d rest _ hin ((decodeSmp_eq_instr _ _ _).2 ⟨hd, rfl⟩)]
    exact (sampleEvent_next _ _ t).trans (and_congr_left' (iff_of_true hfit hd))
  · refine iff_of_false (fun h => ?_) fun h => hd h.1
    simp only [step, fetch, hin, decode, decodeSmp, if_neg hd, onReject] at h
    cases h

/-- With no host access, poll or reset in the schedule a step is one of these. -/
theorem agentStep_of_step (s t : State) (hs : ∀ x ∈ s.inputs, x.sparesHostPort = true) (h : step s = .next t) :
    AgentStep s t := by
  match hin : s.inputs with
  | [] =>
    have hm : SequencerMoves s s := .inl ⟨hin, rfl⟩
    exact .sequenced s.inputs t hm (step_of_sequencerMoves s s hm ▸ h)
  | .event (.sample d) :: rest =>
    obtain ⟨hd, rfl⟩ := (step_sample_eq_next s t d rest hin).1 h
    exact .sampled d rest hin hd
  | .event .seq :: rest =>
    have hm : SequencerMoves s { s with inputs := rest } := .inr (.inl ⟨rest, hin, rfl⟩)
    exact .sequenced rest t hm (step_of_sequencerMoves s _ hm ▸ h)
  | .event .seqAll :: rest =>
    by_cases hp : s.prog = []
    · simp only [step, fetch, hin, if_pos hp] at h
      cases h
      exact .passed rest hin hp
    · have hm : SequencerMoves s s := .inr (.inr ⟨rest, hin, hp, rfl⟩)
      exact .sequenced s.inputs t hm (step_of_sequencerMoves s s hm ▸ h)
  | .event (.ack r) :: rest =>
    simp only [step, fetch, hin] at h
    cases h
    exact .acked r rest hin
  | .event (.host _) :: _ | .reset _ :: _ | .poll _ :: _ =>
    rw [hin, List.forall_mem_cons] at hs
    cases hs.1

/-- Each of these is a step. -/
theorem AgentStep.step_eq {s t : State} (h : AgentStep s t) : step s = .next t := by
  cases h with
  | sampled d rest hin hd => exact (step_sample_eq_next s _ d rest hin).2 ⟨hd, rfl⟩
  | sequenced inputs t hm ht => rw [step_of_sequencerMoves s _ hm, ht]
  | passed rest hin hp => simp only [step, fetch, hin, if_pos hp]
  | acked r rest hin => simp only [step, fetch, hin]

/-- Such a step puts nothing into the schedule. -/
theorem AgentStep.inputs_subset {s t : State} (h : AgentStep s t) : t.inputs ⊆ s.inputs := by
  cases h with
  | sampled d rest hin | passed rest hin | acked r rest hin => exact hin ▸ List.subset_cons_self _ rest
  | sequenced inputs t hm ht =>
    rw [seqStep_inputs _ t ht]
    obtain ⟨-, he⟩ | ⟨rest, hin, he⟩ | ⟨rest, -, -, he⟩ := hm
    · rw [congrArg State.inputs he]; exact List.Subset.refl _
    · rw [congrArg State.inputs he, hin]; exact List.subset_cons_self _ rest
    · rw [congrArg State.inputs he]; exact List.Subset.refl _

section Noninterference

variable (data value segcode : Word) (level : BitVec 3) (resp : Response)

/-- The sequencer has the turn whatever the host's registers hold. -/
theorem sequencerMoves_withHostRegisters (s : State) (inputs : List Input)
    (h : SequencerMoves s { s with inputs := inputs }) :
    SequencerMoves (withHostRegisters data value segcode level resp s)
      (withHostRegisters data value segcode level resp { s with inputs := inputs }) := by
  obtain ⟨hin, he⟩ | ⟨rest, hin, he⟩ | ⟨rest, hin, hp, he⟩ := h
  · exact .inl ⟨hin, by rw [he]⟩
  · exact .inr (.inl ⟨rest, hin, by rw [he]; rfl⟩)
  · exact .inr (.inr ⟨rest, hin, hp, by rw [he]⟩)

/-- With other values in the host's registers the same step is made, and leaves those values. -/
theorem AgentStep.withHostRegisters {s t : State} (h : AgentStep s t) :
    AgentStep (withHostRegisters data value segcode level resp s)
      (withHostRegisters data value segcode level resp t) := by
  cases h with
  | sampled d rest hin hd => exact .sampled d rest hin hd
  | sequenced inputs t hm ht =>
    exact .sequenced inputs _ (sequencerMoves_withHostRegisters data value segcode level resp s inputs hm)
      (seqStep_withHostRegisters data value segcode level resp _ t ht)
  | passed rest hin hp => exact .passed rest hin hp
  | acked r rest hin => exact .acked r rest hin

/-! ## Runs -/

/-- A run of `n + 1` steps is a step and a run of `n`. -/
theorem run_succ_eq_next (n : Nat) (s t : State) :
    Host.Core.run core (n + 1) s = .next t ↔ ∃ u, step s = .next u ∧ Host.Core.run core n u = .next t := by
  constructor
  · intro h
    cases hs : step s with
    | next u => exact ⟨u, rfl, run_of_step n s u hs ▸ h⟩
    | fault r | refused r =>
      have hc : core.step s = _ := hs
      simp only [Host.Core.run, hc, reduceCtorEq] at h
  · rintro ⟨u, hs, hr⟩
    rw [run_of_step n s u hs, hr]

/-- The simulation, step by step: with other values in the host's registers the block runs on to the same state but for
those values. -/
theorem run_withHostRegisters (n : Nat) (s t : State) (hs : ∀ x ∈ s.inputs, x.sparesHostPort = true)
    (h : Host.Core.run core n s = .next t) :
    Host.Core.run core n (withHostRegisters data value segcode level resp s)
      = .next (withHostRegisters data value segcode level resp t) := by
  induction n generalizing s with
  | zero => cases h; rfl
  | succ n ih =>
    obtain ⟨u, hstep, hrun⟩ := (run_succ_eq_next n s t).1 h
    have hagent := agentStep_of_step s u hs hstep
    have hrest := ih u (fun x hx => hs x (hagent.inputs_subset hx)) hrun
    exact (run_succ_eq_next n _ _).2 ⟨_, (hagent.withHostRegisters data value segcode level resp).step_eq, hrest⟩

end Noninterference

/-! ## A host write before the run -/

/-- A host write of BRIGHT, DATA, VALUE or SEGQ changes the host's registers and the port's answer alone (R140, R160,
R172, R174). -/
theorem step_registerWrite (s : State) (rest : List Input) (off : Byte) (v : Word)
    (h : off ∈ [0x08#8, 0x10#8, 0x14#8, 0x18#8]) :
    ∃ (data value segcode : Word) (level : BitVec 3) (resp : Response),
      step { s with inputs := .event (.host (writeAccess off v)) :: rest }
        = .next (withHostRegisters data value segcode level resp { s with inputs := rest }) := by
  simp only [List.mem_cons, List.not_mem_nil, or_false] at h
  obtain rfl | rfl | rfl | rfl := h
  · exact ⟨_, _, _, _, _, step_of_registerAccess 1#1 0x08#8 v (.wrBright v) s rest (by decide) (by decide) rfl⟩
  · exact ⟨_, _, _, _, _, step_of_registerAccess 1#1 0x10#8 v (.wrData v) s rest (by decide) (by decide) rfl⟩
  · exact ⟨_, _, _, _, _, step_of_registerAccess 1#1 0x14#8 v (.wrValue v) s rest (by decide) (by decide) rfl⟩
  · exact ⟨_, _, _, _, _, step_of_registerAccess 1#1 0x18#8 v (.wrSegq v) s rest (by decide) (by decide) rfl⟩

/-- Settles O49: the simulation of the run with other register values, begun at once or after a host write, which is a
step to such values. -/
theorem commandInFlightIgnoresLaterWrites : Obligations.CommandInFlightIgnoresLaterWrites := by
  refine ⟨?otherValues, ?hostWrite⟩
  case otherValues =>
    intro n s t data value segcode level resp hs h
    exact run_withHostRegisters data value segcode level resp n s t hs h
  case hostWrite =>
    intro n s t off v hoff hs h
    obtain ⟨data, value, segcode, level, resp, hstep⟩ := step_registerWrite s s.inputs off v hoff
    have hrun := run_withHostRegisters data value segcode level resp n s t hs h
    exact ⟨_, (run_succ_eq_next n _ _).2 ⟨_, hstep, hrun⟩, rfl⟩

end Sys2Proof.Machine
end

section
/-! SUPPORT. The loop of WAITIDLE and the receiver's ACK lines: how far the sequencer still is from the end of PROG, what
the host's poll does, and why the loop ends (R94, R95, R190, R262). -/

namespace Sys2Proof.Machine

/-! ## ACK lines (R95) -/

/-- An ACK line at the head of the schedule queues its answer. -/
theorem step_ack (s : State) (r : Bool) (rest : List Input) :
    step { s with inputs := .event (.ack r) :: rest } = .next { s with inputs := rest, acks := s.acks ++ [r] } := rfl

/-- Settles O59: one line by `step_ack`, a run by induction on the lines. -/
theorem ackLinesQueueTheirAnswers : Obligations.AckLinesQueueTheirAnswers := by
  refine ⟨step_ack, fun s rs rest => ?_⟩
  induction rs generalizing s with
  | nil => simp [Host.Core.run]
  | cons r rs ih =>
    have hrest := ih { s with acks := s.acks ++ [r] }
    rw [List.append_assoc] at hrest
    exact (run_succ_eq_next rs.length _ _).2 ⟨_, step_ack s r _, hrest⟩

/-! ## The poll (R95, log entry 14) -/

/-- BUSY is that PROG is not empty (R33). -/
theorem busy_iff (s : State) : s.busy = true ↔ ¬s.prog = [] := by
  simp [State.busy]

/-- A poll answers the STATUS word, and leaves the loop exactly when the block is idle. -/
theorem step_poll_eq_next (s : State) (w : Wait) (rest : List Input) (hin : s.inputs = .poll w :: rest) :
    step s = .next { s with
      inputs := if s.prog = [] then rest else w.nextRound ++ rest
      resp := .data s.statusWord } := by
  rw [step_poll s w rest hin, if_congr (busy_iff s) rfl rfl, ite_not]
  rfl

/-- With an unfair scheduler and no round listed, the poll of a busy block leaves the schedule as it was (U16). -/
theorem step_poll_unfair (s : State) (rest : List Input) (hp : s.prog ≠ [])
    (hin : s.inputs = .poll ⟨[], false⟩ :: rest) : step s = .next { s with resp := .data s.statusWord } := by
  rw [step_poll_eq_next s _ rest hin, if_neg hp]
  congr 2
  exact hin.symm

/-- Settles O58: one poll by `step_poll_eq_next`; unfair polling by induction on the steps, each of which changes the
port's answer alone. -/
theorem pollLoopsWhileBusy : Obligations.PollLoopsWhileBusy := by
  refine ⟨fun s w rest => step_poll_eq_next _ w rest rfl, fun n s rest hp hin => ?_⟩
  induction n generalizing s with
  | zero => exact (run_succ_eq_next 0 _ _).2 ⟨_, step_poll_unfair s rest hp hin, rfl⟩
  | succ n ih =>
    exact (run_succ_eq_next _ _ _).2 ⟨_, step_poll_unfair s rest hp hin, ih { s with resp := .data s.statusWord } hp hin⟩

/-! ## How far PROG is from its end (R190) -/

/-- A bound on the sequencer events still to come: 59 for each item, the longest a BYTE can be (R194), less those of the
head item that are done. -/
def eventsLeft (s : State) : Nat := 59 * s.prog.length - s.k

/-- No item has more than 59 events (R192, R194, R197). -/
theorem events_length_le (it : Item) (ackok : Bool) : (events it ackok).length ≤ 59 := by
  cases it with
  | start => simp
  | stop => simp
  | byte b => rw [events_byte_length]; split <;> decide

/-- In a lawful state with PROG not empty the sequencer has an event to perform (R190). -/
theorem exists_event_of_wireInv (s : State) (it : Item) (items : List Item) (h : WireInv s)
    (hp : s.prog = it :: items) : ∃ ev, (events it s.ackok)[s.k]? = some ev := by
  obtain ⟨-, -, hplace⟩ := h
  have hk := ((seqPlace_cons s it items hp).1 hplace).index
  exact ⟨_, List.getElem?_eq_getElem hk⟩

/-- A sequencer event brings PROG nearer its end (R190). -/
theorem eventsLeft_advance_perform (it : Item) (items : List Item) (ev : WireEvent) (s : State)
    (hp : s.prog = it :: items) (hev : (events it s.ackok)[s.k]? = some ev) :
    eventsLeft (advance it items (perform ev s)) + 1 ≤ eventsLeft s := by
  obtain ⟨hk, -⟩ := List.getElem?_eq_some_iff.1 hev
  have h59 := events_length_le it s.ackok
  unfold advance
  rw [perform_k]
  split
  · simp only [eventsLeft, hp, List.length_cons]
    omega
  · simp only [eventsLeft, perform_prog, hp, List.length_cons]
    omega

/-- The sequencer's turn brings a lawful busy block nearer the end of PROG (R190). -/
theorem exists_seqStep_eventsLeft (s : State) (h : WireInv s) (hp : s.prog ≠ []) :
    ∃ t, seqStep s = .next t ∧ eventsLeft t + 1 ≤ eventsLeft s := by
  obtain ⟨it, items, hp⟩ := List.exists_cons_of_ne_nil hp
  obtain ⟨ev, hev⟩ := exists_event_of_wireInv s it items h hp
  exact ⟨_, (seqStep_next s _).2 (.inr ⟨it, items, ev, hp, hev, rfl⟩), eventsLeft_advance_perform it items ev s hp hev⟩

/-! ## Runs within a number of steps -/

/-- Two runs one after the other are a run. -/
theorem run_add (m n : Nat) (s t : State) (h : Host.Core.run core m s = .next t) :
    Host.Core.run core (m + n) s = Host.Core.run core n t := by
  induction m generalizing s with
  | zero => cases h; rw [Nat.zero_add]
  | succ m ih =>
    obtain ⟨u, hstep, hrun⟩ := (run_succ_eq_next m s t).1 h
    rw [Nat.succ_add, run_of_step _ s u hstep, ih u hrun]

/-- No step writes the parameters (R9, log entry 1). -/
theorem step_params (s t : State) (h : step s = .next t) : t.params = s.params := by
  cases step_effect s t h with
  | spared => rfl
  | sampled => rfl
  | commanded => simp
  | sequenced => simp
  | wasReset => rfl

/-- `s` runs to `t` within `cost` steps beside the sequencer's own, which are paid for by the events that leave PROG. -/
def RunsTo (cost : Nat) (s t : State) : Prop :=
  ∃ n, Host.Core.run core n s = .next t ∧ n + eventsLeft t ≤ eventsLeft s + cost

/-- One step, with its cost. -/
theorem RunsTo.of_step {cost : Nat} {s t : State} (h : step s = .next t)
    (hc : 1 + eventsLeft t ≤ eventsLeft s + cost) : RunsTo cost s t :=
  ⟨1, (run_succ_eq_next 0 s t).2 ⟨t, h, rfl⟩, hc⟩

/-- Costs add up along a run. -/
theorem RunsTo.trans {c d : Nat} {s t u : State} (h : RunsTo c s t) (h' : RunsTo d t u) : RunsTo (c + d) s u := by
  obtain ⟨m, hm, hcm⟩ := h
  obtain ⟨n, hn, hcn⟩ := h'
  exact ⟨m + n, (run_add m n s t hm).trans hn, by omega⟩

/-- A run may take less than it is allowed. -/
theorem RunsTo.mono {c d : Nat} {s t : State} (h : RunsTo c s t) (hcd : c ≤ d) : RunsTo d s t := by
  obtain ⟨n, hn, hc⟩ := h
  exact ⟨n, hn, by omega⟩

/-- A run keeps the sequencer's invariant and the parameters. -/
theorem RunsTo.keeps {c : Nat} {s t : State} (h : RunsTo c s t) (hw : WireInv s) :
    WireInv t ∧ t.params = s.params := by
  obtain ⟨n, hrun, -⟩ := h
  induction n generalizing s with
  | zero => cases hrun; exact ⟨hw, rfl⟩
  | succ n ih =>
    obtain ⟨u, hstep, hrun⟩ := (run_succ_eq_next n s t).1 hrun
    obtain ⟨ht, hp⟩ := ih (stepKeepsWireInvariant s u hw hstep) hrun
    exact ⟨ht, hp.trans (step_params s u hstep)⟩

/-! ## What happens before a poll -/

/-- A `SEQ*` entry runs a lawful block until PROG is empty, and is used up (R94, R190). -/
theorem exists_runsTo_seqAll (s : State) (rest : List Input) (hw : WireInv s)
    (hin : s.inputs = .event .seqAll :: rest) : ∃ t, RunsTo 1 s t ∧ t.inputs = rest ∧ t.prog = [] := by
  induction hn : eventsLeft s using Nat.strongRecOn generalizing s with
  | ind n ih =>
    by_cases hp : s.prog = []
    · have hstep : step s = .next { s with inputs := rest } := by simp only [step, fetch, hin, if_pos hp]
      exact ⟨_, .of_step hstep (Nat.add_comm 1 _).le, rfl, hp⟩
    · obtain ⟨u, hseq, hleft⟩ := exists_seqStep_eventsLeft s hw hp
      have hstep : step s = .next u := (step_of_sequencerMoves s s (.inr (.inr ⟨rest, hin, hp, rfl⟩))).trans hseq
      have hfirst : RunsTo 0 s u := .of_step hstep (by omega)
      obtain ⟨t, hrun, ht⟩ := ih (eventsLeft u) (by omega) u (hfirst.keeps hw).1
        ((seqStep_inputs s u hseq).trans hin) rfl
      exact ⟨t, hfirst.trans hrun |>.mono (by omega), ht⟩

/-- One sequencer step, or a turn that passes, takes PROG no farther from its end (R190). -/
theorem exists_seqStep_of_wireInv (s : State) (h : WireInv s) :
    ∃ t, seqStep s = .next t ∧ eventsLeft t ≤ eventsLeft s := by
  by_cases hp : s.prog = []
  · exact ⟨s, (seqStep_next s s).2 (.inl ⟨hp, rfl⟩), le_rfl⟩
  · obtain ⟨t, ht, hleft⟩ := exists_seqStep_eventsLeft s h hp
    exact ⟨t, ht, by omega⟩

/-- A reset among whose events the ports take every one ends with PROG empty (R240, R241). -/
theorem exists_step_reset (s : State) (during : List Event) (rest : List Input)
    (hin : s.inputs = .reset during :: rest) (hd : portsAccept s.params during) :
    ∃ t, step s = .next t ∧ t.inputs = rest ∧ eventsLeft t = 0 := by
  obtain ⟨acks, resp, hu⟩ := underReset_append during [] (resetBlock { s with inputs := rest }) hd
  rw [List.append_nil] at hu
  have hstep : step s = .next { resetBlock { s with inputs := rest } with acks := acks, resp := resp } := by
    simp only [step, fetch, hin]
    exact hu
  exact ⟨_, hstep, rfl, rfl⟩

/-- An accepted action before a poll is one step beside the sequencer's own, and is used up. -/
theorem exists_runsTo_meanwhile (m : Meanwhile) (s : State) (rest : List Input) (hw : WireInv s)
    (hm : m.accepted s.params) (hin : s.inputs = m.toInput :: rest) : ∃ t, RunsTo 1 s t ∧ t.inputs = rest := by
  cases m with
  | sample d =>
    have hstep := (step_sample_eq_next s _ d rest hin).2 ⟨hm, rfl⟩
    exact ⟨_, .of_step hstep (Nat.add_comm 1 _).le, rfl⟩
  | seq =>
    obtain ⟨t, hseq, hleft⟩ := exists_seqStep_of_wireInv { s with inputs := rest } hw
    have hstep := (step_of_sequencerMoves s _ (.inr (.inl ⟨rest, hin, rfl⟩))).trans hseq
    have hle : eventsLeft t ≤ eventsLeft s := hleft
    exact ⟨t, .of_step hstep (by omega), seqStep_inputs _ t hseq⟩
  | seqAll =>
    obtain ⟨t, hrun, hinputs, -⟩ := exists_runsTo_seqAll s rest hw hin
    exact ⟨t, hrun, hinputs⟩
  | ack r =>
    have hstep : step s = .next (queueAck r { s with inputs := rest }) := by
      simp only [step, fetch, hin, Meanwhile.toInput]
    exact ⟨_, .of_step hstep (Nat.add_comm 1 _).le, rfl⟩
  | reset during =>
    obtain ⟨t, hstep, hinputs, hleft⟩ := exists_step_reset s during rest hin hm
    exact ⟨t, .of_step hstep (by omega), hinputs⟩

/-- The accepted actions of a round are a step each beside the sequencer's own. -/
theorem exists_runsTo_round (acts : List Meanwhile) (s : State) (rest : List Input) (hw : WireInv s)
    (hacts : ∀ m ∈ acts, m.accepted s.params) (hin : s.inputs = acts.map Meanwhile.toInput ++ rest) :
    ∃ t, RunsTo acts.length s t ∧ t.inputs = rest := by
  induction acts generalizing s with
  | nil => exact ⟨s, ⟨0, rfl, (Nat.zero_add _).le⟩, hin⟩
  | cons m acts ih =>
    obtain ⟨hm, hacts⟩ := List.forall_mem_cons.1 hacts
    obtain ⟨u, hfirst, hu⟩ := exists_runsTo_meanwhile m s _ hw hm hin
    obtain ⟨huw, hup⟩ := hfirst.keeps hw
    obtain ⟨t, hrun, ht⟩ := ih u huw (hup ▸ hacts) hu
    exact ⟨t, (hfirst.trans hrun).mono (Nat.add_comm 1 _).le, ht⟩

/-! ## The loop -/

/-- The host has left the loop on an idle block: the last STATUS read answered BUSY = 0 (R95). -/
structure LeftIdle (rest : List Input) (t : State) : Prop where
  inputs : t.inputs = rest
  prog : t.prog = []
  resp : ∃ word : Word, t.resp = .data word ∧ word.getLsbD 0 = false

/-- The poll of an idle block leaves the loop. -/
theorem exists_runsTo_poll_idle (s : State) (w : Wait) (rest : List Input) (hin : s.inputs = .poll w :: rest)
    (hp : s.prog = []) : ∃ t, RunsTo 1 s t ∧ LeftIdle rest t := by
  have hstep := step_poll_eq_next s w rest hin
  rw [if_pos hp] at hstep
  have hword : s.statusWord.getLsbD 0 = false := by
    rw [statusWord_getLsbD_zero, ← Bool.not_eq_true, busy_iff, not_not]
    exact hp
  exact ⟨_, .of_step hstep (Nat.add_comm 1 _).le, rfl, hp, s.statusWord, rfl, hword⟩

/-- The poll of a busy block goes into the next round. -/
theorem exists_runsTo_poll_busy (s : State) (w : Wait) (rest : List Input) (hin : s.inputs = .poll w :: rest)
    (hp : s.prog ≠ []) : ∃ t, RunsTo 1 s t ∧ t.inputs = w.nextRound ++ rest := by
  have hstep := step_poll_eq_next s w rest hin
  rw [if_neg hp] at hstep
  exact ⟨_, .of_step hstep (Nat.add_comm 1 _).le, rfl⟩

/-- Under a fair scheduler the loop ends on an idle block: after the listed rounds `SEQ*` empties PROG, unless a poll
found it empty before (R262). -/
theorem exists_runsTo_leftIdle (rounds : List (List Meanwhile)) (s : State) (rest : List Input) (hw : WireInv s)
    (hacts : ∀ acts ∈ rounds, ∀ m ∈ acts, m.accepted s.params)
    (hin : s.inputs = Wait.nextRound ⟨rounds, true⟩ ++ rest) :
    ∃ t, RunsTo (rounds.flatten.length + rounds.length + 2) s t ∧ LeftIdle rest t := by
  induction rounds generalizing s with
  | nil =>
    obtain ⟨u, hseqAll, hu, hp⟩ := exists_runsTo_seqAll s _ hw hin
    obtain ⟨t, hpoll, ht⟩ := exists_runsTo_poll_idle u _ rest hu hp
    exact ⟨t, hseqAll.trans hpoll, ht⟩
  | cons acts rounds ih =>
    obtain ⟨hfirst, hrest⟩ := List.forall_mem_cons.1 hacts
    rw [List.flatten_cons, List.length_append, List.length_cons]
    obtain ⟨u, hround, hu⟩ := exists_runsTo_round acts s _ hw hfirst (hin.trans (List.append_assoc _ _ rest))
    by_cases hp : u.prog = []
    · obtain ⟨t, hpoll, ht⟩ := exists_runsTo_poll_idle u _ rest hu hp
      exact ⟨t, (hround.trans hpoll).mono (by omega), ht⟩
    · obtain ⟨v, hpoll, hv⟩ := exists_runsTo_poll_busy u _ rest hu hp
      have hsofar := hround.trans hpoll
      obtain ⟨hvw, hvp⟩ := hsofar.keeps hw
      obtain ⟨t, hloop, ht⟩ := ih v hvw (hvp ▸ hrest) hv
      exact ⟨t, (hsofar.trans hloop).mono (by omega), ht⟩

/-- Settles O60: the loop's run costs a step for each action and poll, two more, and the sequencer's own, of which there
are at most 59 for each item of PROG. -/
theorem waitIdleEndsIdle : Obligations.WaitIdleEndsIdle := by
  rintro s ⟨rounds, fair⟩ rest hw rfl hacts hin
  obtain ⟨t, ⟨n, hrun, hcost⟩, hinputs, hprog, word, hresp, hword⟩ :=
    exists_runsTo_leftIdle rounds s rest hw hacts hin
  have hleft : eventsLeft s ≤ 59 * s.prog.length := Nat.sub_le _ _
  refine ⟨n, t, word, ?_, hrun, hinputs, hprog, hresp, hword⟩
  show n ≤ 59 * s.prog.length + rounds.flatten.length + rounds.length + 2
  omega

end Sys2Proof.Machine
end

section
/-! SUPPORT. The decoder and the encoder are inverse to each other at each port, and what follows for the CMD words, the
command bytes and the assembler's words (R80-R95). -/

namespace Sys2Proof.Machine

/-! ## CMD words (R84-R88) -/

/-- A CMD word is the seven fields of R84. -/
theorem eq_append_fields (w : Word) :
    w = w.extractLsb' 14 18 ++ w.extractLsb' 12 2 ++ w.extractLsb' 10 2 ++ w.extractLsb' 8 2 ++ w.extractLsb' 5 3
      ++ w.extractLsb' 4 1 ++ w.extractLsb' 0 4 := by
  iterate 6 rw [BitVec.extractLsb'_append_extractLsb'_eq_extractLsb' (by rfl)]
  exact BitVec.extractLsb'_eq_self.symm

/-- A field that lies under a row's mask is the row's. -/
theorem extractLsb'_of_masked {w mask pattern : Word} (h : w &&& mask = pattern) (start len : Nat)
    (hm : mask.extractLsb' start len = BitVec.allOnes len) :
    w.extractLsb' start len = pattern.extractLsb' start len := by
  rw [← h, BitVec.extractLsb'_and, hm, BitVec.and_allOnes]

/-- The LZ field is its one bit. -/
theorem extractLsb'_one_eq_ofBool (w : Word) (i : Nat) : w.extractLsb' i 1 = BitVec.ofBool (w.getLsbD i) := by
  ext j hj
  obtain rfl : j = 0 := by omega
  simp

/-- The row of RENDER_NUMBER has no free bit but LZ. -/
theorem eq_encodeCmd_renderNumber (w : Word) (h : w &&& 0xFFFFFFEF#32 = 0x00000003#32) :
    w = encodeCmd (.renderNumber (w.getLsbD 4)) := by
  have hf := extractLsb'_of_masked h
  refine (eq_append_fields w).trans ?_
  rw [hf 14 18 rfl, hf 12 2 rfl, hf 10 2 rfl, hf 8 2 rfl, hf 5 3 rfl, hf 0 4 rfl, extractLsb'_one_eq_ofBool]
  rfl

/-- The row of DISPLAY has no free bits but POS and LENM1. -/
theorem eq_encodeCmd_display (w : Word) (h : w &&& 0xFFFFCCFF#32 = 0x00000004#32) :
    w = encodeCmd (.display (w.extractLsb' 8 2) (w.extractLsb' 12 2)) := by
  have hf := extractLsb'_of_masked h
  refine (eq_append_fields w).trans ?_
  rw [hf 14 18 rfl, hf 10 2 rfl, hf 5 3 rfl, hf 4 1 rfl, hf 0 4 rfl]
  rfl

/-- The row of WRITE_FIXED has no free bits but POS. -/
theorem eq_encodeCmd_writeFixed (w : Word) (h : w &&& 0xFFFFFCFF#32 = 0x00000005#32) :
    w = encodeCmd (.writeFixed (w.extractLsb' 8 2)) := by
  have hf := extractLsb'_of_masked h
  refine (eq_append_fields w).trans ?_
  rw [hf 14 18 rfl, hf 12 2 rfl, hf 10 2 rfl, hf 5 3 rfl, hf 4 1 rfl, hf 0 4 rfl]
  rfl

/-- A word that names a command is the command's word (R88). -/
theorem eq_encodeCmd_of_decodeCmd (w : Word) (c : Command) (h : decodeCmd w = some c) : w = encodeCmd c := by
  unfold decodeCmd at h
  rcases of_ite_some h with ⟨hw, rfl⟩ | h
  · exact hw
  rcases of_ite_some h with ⟨hw, rfl⟩ | h
  · exact hw
  rcases of_ite_some h with ⟨hw, rfl⟩ | h
  · exact eq_encodeCmd_renderNumber w hw
  split at h
  · rename_i hw
    rcases of_ite_some h with ⟨-, rfl⟩ | h
    · exact eq_encodeCmd_display w hw
    · cases h
  · rcases of_ite_some h with ⟨hw, rfl⟩ | h
    · exact eq_encodeCmd_writeFixed w hw
    · cases h

/-- The word of a legal command names it (R85, R88). -/
theorem decodeCmd_encodeCmd (c : Command) (h : c.legal = true) : decodeCmd (encodeCmd c) = some c := by
  cases c with
  | clear | renderDigits => rfl
  | renderNumber lz => cases lz <;> rfl
  | display pos lenm1 =>
    have hall : ∀ pos lenm1 : BitVec 2, (Command.display pos lenm1).legal = true →
        decodeCmd (encodeCmd (.display pos lenm1)) = some (.display pos lenm1) := by decide
    exact hall pos lenm1 h
  | writeFixed pos =>
    have hall : ∀ pos : BitVec 2, decodeCmd (encodeCmd (.writeFixed pos)) = some (.writeFixed pos) := by decide
    exact hall pos

/-- Each legal command has one word (R88). -/
theorem decodeCmd_eq_some_iff (w : Word) (c : Command) :
    decodeCmd w = some c ↔ w = encodeCmd c ∧ c.legal = true := by
  refine ⟨fun h => ⟨eq_encodeCmd_of_decodeCmd w c h, decodeCmd_legal w c h⟩, ?_⟩
  rintro ⟨rfl, hl⟩
  exact decodeCmd_encodeCmd c hl

/-- Each legal command has one word, as a number. -/
theorem decodeCmd_eq_some_iff_toNat (w : Word) (c : Command) (n : Nat) (hn : (encodeCmd c).toNat = n) :
    decodeCmd w = some c ↔ w.toNat = n ∧ c.legal = true := by
  rw [decodeCmd_eq_some_iff, ← hn, BitVec.toNat_inj]

/-- The word of RENDER_NUMBER as a number (R84, R85). -/
theorem encodeCmd_renderNumber_toNat (lz : Bool) : (encodeCmd (.renderNumber lz)).toNat = 3 + 16 * lz.toNat := by
  cases lz <;> rfl

/-- The word of DISPLAY as a number (R84, R85). -/
theorem encodeCmd_display_toNat (pos lenm1 : BitVec 2) :
    (encodeCmd (.display pos lenm1)).toNat = 4 + 256 * pos.toNat + 4096 * lenm1.toNat := by
  simp only [encodeCmd, toNat_append_eq, BitVec.toNat_ofNat]
  omega

/-- The word of WRITE_FIXED as a number (R84, R85). -/
theorem encodeCmd_writeFixed_toNat (pos : BitVec 2) :
    (encodeCmd (.writeFixed pos)).toNat = 5 + 256 * pos.toNat := by
  simp only [encodeCmd, toNat_append_eq, BitVec.toNat_ofNat]
  omega

/-- The cells of DISPLAY(p, l) fit when p + l is at most 4 (R87 (b)). -/
theorem legal_display_iff (pos lenm1 : BitVec 2) :
    (Command.display pos lenm1).legal = true ↔ pos.toNat + (lenm1.toNat + 1) ≤ 4 :=
  decide_eq_true_iff

/-- Settles O26: each legal command has one word, and its number is the sum of its fields in their places. -/
theorem cmdDecoderFollowsTheFieldTable : Obligations.CmdDecoderFollowsTheFieldTable := by
  intro w
  refine ⟨?clear, ?renderDigits, fun lz => ?renderNumber, fun pos lenm1 => ?display, fun pos => ?writeFixed⟩
  case clear => exact (decodeCmd_eq_some_iff_toNat w _ 1 rfl).trans (and_iff_left rfl)
  case renderDigits => exact (decodeCmd_eq_some_iff_toNat w _ 2 rfl).trans (and_iff_left rfl)
  case renderNumber =>
    exact (decodeCmd_eq_some_iff_toNat w _ _ (encodeCmd_renderNumber_toNat lz)).trans (and_iff_left rfl)
  case display =>
    exact (decodeCmd_eq_some_iff_toNat w _ _ (encodeCmd_display_toNat pos lenm1)).trans
      (and_congr_right' (legal_display_iff pos lenm1))
  case writeFixed =>
    exact (decodeCmd_eq_some_iff_toNat w _ _ (encodeCmd_writeFixed_toNat pos)).trans (and_iff_left rfl)

/-! ## The assembler's CMD words (R95) -/

/-- The assembler's word for DISPLAY is the sum of its fields, which do not overlap. -/
theorem displayWord_eq_sum : ∀ p < 4, ∀ lenm1 < 4,
    0x4 ||| (p <<< 8) ||| (lenm1 <<< 12) = 4 + 256 * p + 4096 * lenm1 := by decide

/-- The assembler's word for WRITE_FIXED is the sum of its fields. -/
theorem writeFixedWord_eq_sum : ∀ p < 4, 0x5 ||| (p <<< 8) = 5 + 256 * p := by decide

/-- A number of 32 bits, as the assembler's integer, is itself in the word. -/
theorem toNat_ofInt_natCast (n : Nat) (h : n < 2 ^ 32) : (BitVec.ofInt 32 (n : Int)).toNat = n := by
  rw [BitVec.ofInt_natCast, BitVec.toNat_ofNat, Nat.mod_eq_of_lt h]

/-- The assembler's word for DISPLAY(p, l) names it, when its cells fit. -/
theorem decodeCmd_displayWord (p l : Nat) (hl : 1 ≤ l) (hp : p + l ≤ 4) :
    decodeCmd (BitVec.ofInt 32 ((0x4 ||| (p <<< 8) ||| ((l - 1) <<< 12) : Nat) : Int))
      = some (.display (BitVec.ofNat 2 p) (BitVec.ofNat 2 (l - 1))) := by
  obtain ⟨-, -, -, hdisplay, -⟩ := cmdDecoderFollowsTheFieldTable
    (BitVec.ofInt 32 ((0x4 ||| (p <<< 8) ||| ((l - 1) <<< 12) : Nat) : Int))
  rw [hdisplay, displayWord_eq_sum p (by omega) (l - 1) (by omega), toNat_ofInt_natCast _ (by omega),
    BitVec.toNat_ofNat, BitVec.toNat_ofNat]
  omega

/-- The assembler's word for WRITE_FIXED(p) names it. -/
theorem decodeCmd_writeFixedWord (p : Nat) (hp : p ≤ 3) :
    decodeCmd (BitVec.ofInt 32 ((0x5 ||| (p <<< 8) : Nat) : Int)) = some (.writeFixed (BitVec.ofNat 2 p)) := by
  obtain ⟨-, -, -, -, hfixed⟩ := cmdDecoderFollowsTheFieldTable
    (BitVec.ofInt 32 ((0x5 ||| (p <<< 8) : Nat) : Int))
  rw [hfixed, writeFixedWord_eq_sum p (by omega), toNat_ofInt_natCast _ (by omega), BitVec.toNat_ofNat]
  omega

/-- Settles O57: the assembler's test of the operands decides, and its words decode by the field table. -/
theorem pseudoCommandsExpandToTheirWords : Obligations.PseudoCommandsExpandToTheirWords := by
  intro p l w
  refine ⟨?display, fun h => if_neg h, ?writeFixed, fun h => if_neg h.not_ge⟩
  case display =>
    rintro ⟨hl, hp⟩
    exact ⟨_, if_pos ⟨hl, hp⟩, decodeCmd_displayWord p l hl hp⟩
  case writeFixed =>
    intro hp
    exact ⟨_, if_pos hp, decodeCmd_writeFixedWord p hp⟩

/-! ## Command bytes (R90-R92) -/

/-- Each command-byte operation has one byte (R90). -/
theorem decodeTm_eq_some_iff (b : Byte) (i : Instr) : decodeTm b = some i ↔ sentByte i = some b := by
  refine ⟨sentByte_of_decodeTm b i, fun h => ?_⟩
  have haddr : ∀ pos : BitVec 2, decodeTm (addrByte pos) = some (.tmAddr pos) := by decide
  have hdisp : ∀ level : BitVec 3, decodeTm (dispByte level) = some (.tmDisp level) := by decide
  cases i
  case tmAuto | tmFixed => cases h; rfl
  case tmAddr pos => cases h; exact haddr pos
  case tmDisp level => cases h; exact hdisp level
  all_goals cases h

/-- The address byte as its two fields (R90, R179). -/
theorem addrByte_eq_append : ∀ pos : BitVec 2, addrByte pos = 0x30#6 ++ pos := by decide

/-- The brightness byte as its two fields (R90, R180). -/
theorem dispByte_eq_append : ∀ level : BitVec 3, dispByte level = 0x11#5 ++ level := by decide

/-- The encoding of a command-byte operation is the byte it sends, and every operand has one (R90). -/
theorem encode_of_sentByte (p : Params) (b : Byte) (i : Instr) (h : sentByte i = some b) :
    encode i = .tm b ∧ i.wf p = true := by
  cases i
  case tmAuto | tmFixed => cases h; exact ⟨rfl, rfl⟩
  case tmAddr pos => cases h; rw [addrByte_eq_append]; exact ⟨rfl, rfl⟩
  case tmDisp level => cases h; rw [dispByte_eq_append]; exact ⟨rfl, rfl⟩
  all_goals cases h

/-- The bytes of the map are the fourteen (R90). -/
theorem decodeTm_isSome_iff : ∀ b : Byte, (decodeTm b).isSome = true ↔
    b.toNat = 0x40 ∨ b.toNat = 0x44 ∨ (0xC0 ≤ b.toNat ∧ b.toNat ≤ 0xC3) ∨ (0x88 ≤ b.toNat ∧ b.toNat ≤ 0x8F) := by
  decide

/-- Settles O29: the sequencer's port decodes by the map of R90. -/
theorem commandBytesAreTheFourteen : Obligations.CommandBytesAreTheFourteen := by
  intro p b
  rw [← decodeTm_isSome_iff b, Option.isSome_iff_exists]
  simp only [decode_tm_eq_instr]

/-- A command byte that is not at the head of PROG, or not the first of its transaction, is refused (log entry 8). -/
theorem exec_of_not_due (s : State) (i : Instr) (b : Byte) (hb : sentByte i = some b)
    (h : s.prog.head? ≠ some (.byte b) ∨ s.firstByte = false) : exec i s = .refused .commandByteNotDue := by
  rw [exec_sentByte i b hb s]
  refine if_neg ?_
  rintro ⟨hf, hp⟩
  exact h.elim (· hp) fun hf' => Bool.false_ne_true (hf'.symm.trans hf)

/-- Each operation that is a sequencer step sends a byte (R90). -/
theorem exists_sentByte_of_onWire (i : Instr) (h : onWire i = true) : ∃ b, sentByte i = some b := by
  cases i
  case tmAuto | tmFixed | tmAddr | tmDisp => exact ⟨_, rfl⟩
  all_goals cases h

/-- The address byte as a number (R179). -/
theorem addrByte_eq_ofNat : ∀ pos : BitVec 2, addrByte pos = BitVec.ofNat 8 (0xC0 + pos.toNat) := by decide

/-- The brightness byte as a number (R180). -/
theorem dispByte_eq_ofNat : ∀ level : BitVec 3, dispByte level = BitVec.ofNat 8 (0x88 + level.toNat) := by decide

/-- Settles O34: in each case the operation's byte is not due. -/
theorem commandByteNotDueIsRefused : Obligations.CommandByteNotDueIsRefused := by
  intro s i h
  obtain ⟨rfl, hp⟩ | ⟨rfl, hp⟩ | ⟨pos, rfl, hp⟩ | ⟨level, rfl, hp⟩ | ⟨hw, hf⟩ := h
  · exact exec_of_not_due s _ _ rfl (.inl hp)
  · exact exec_of_not_due s _ _ rfl (.inl hp)
  · exact exec_of_not_due s _ _ rfl (.inl (addrByte_eq_ofNat pos ▸ hp))
  · exact exec_of_not_due s _ _ rfl (.inl (dispByte_eq_ofNat level ▸ hp))
  · obtain ⟨b, hb⟩ := exists_sentByte_of_onWire i hw
    exact exec_of_not_due s i b hb (.inr hf)

/-! ## Host accesses and samples (R81-R83) -/

/-- An aligned word access of the window decodes to the row of its descriptor (R61, R82). -/
theorem decodeBus_of_register (dirBit : BitVec 1) (off : Byte) (data : Word) (i : Instr)
    (hw : off.toNat < Config.windowBytes) (ha : off.toNat % 4 = 0)
    (hi : decodeDescriptor (dirBit ++ off) data = some i) : decodeBus ⟨dirBit ++ off, 4, data⟩ = .instr i := by
  have hoff : Access.off ⟨dirBit ++ off, 4, data⟩ = off := BitVec.extractLsb'_append_eq_right
  refine decodeBus_of_row _ i ((Access.rejected_eq_none _).2 ⟨?_, rfl, ?_⟩) hi
  · rwa [hoff]
  · rwa [hoff]

/-- A read of a register's offset decodes to the register's read. -/
theorem decode_readAccess (p : Params) (off : Byte) (i : Instr) (hw : off.toNat < Config.windowBytes)
    (ha : off.toNat % 4 = 0) (hi : decodeDescriptor (0#1 ++ off) 0#32 = some i) :
    decode p (.bus (readAccess off)) = .instr i :=
  decodeBus_of_register 0#1 off 0#32 i hw ha hi

/-- A write to a register's offset decodes to the register's write. -/
theorem decode_writeAccess (p : Params) (off : Byte) (v : Word) (i : Instr) (hw : off.toNat < Config.windowBytes)
    (ha : off.toNat % 4 = 0) (hi : decodeDescriptor (1#1 ++ off) v = some i) :
    decode p (.bus (writeAccess off v)) = .instr i :=
  decodeBus_of_register 1#1 off v i hw ha hi

/-- The operation of a descriptor is well-formed and encodes to it, with the data of a write (R81, R82). -/
theorem encode_of_decodeDescriptor (p : Params) (desc : BitVec 9) (data : Word) (i : Instr)
    (h : decodeDescriptor desc data = some i) :
    i.wf p = true ∧ encode i = .bus ⟨desc, 4, if 256 ≤ desc.toNat then data else 0#32⟩ := by
  unfold decodeDescriptor at h
  iterate 16
    rcases of_ite_some h with ⟨rfl, rfl⟩ | h
    · exact ⟨rfl, rfl⟩
  cases h

/-- `SAMPLE_W` bits fit the 16 of a slot (R9). -/
theorem two_pow_sampleW_le (p : Params) : 2 ^ p.sampleW ≤ 2 ^ 16 :=
  Nat.pow_le_pow_right (by decide) p.sampleWm1.isLt

/-- The operation of a display command encodes to its CMD word. -/
theorem encode_toInstr (c : Command) : encode c.toInstr = .cmd (encodeCmd c) := by
  cases c <;> rfl

/-- A display command's operation is well-formed when the command is legal (R85). -/
theorem wf_toInstr (p : Params) (c : Command) : c.toInstr.wf p = c.legal := by
  cases c <;> rfl

/-! ## Both directions -/

/-- The encoding of a legal display command decodes to its operation. -/
theorem decode_encode_toInstr (p : Params) (c : Command) (h : c.toInstr.wf p = true) :
    decode p (encode c.toInstr) = .instr c.toInstr := by
  rw [wf_toInstr] at h
  rw [encode_toInstr, decode_cmd_eq_instr]
  exact ⟨c, decodeCmd_encodeCmd c h, rfl⟩

/-- The encoding of a command-byte operation decodes to it. -/
theorem decode_encode_of_onWire (p : Params) (i : Instr) (h : onWire i = true) : decode p (encode i) = .instr i := by
  obtain ⟨b, hb⟩ := exists_sentByte_of_onWire i h
  rw [(encode_of_sentByte p b i hb).1, decode_tm_eq_instr, decodeTm_eq_some_iff]
  exact hb

/-- Settles O27: by the port of the operation's encoding. -/
theorem decodeOfEncodeIsTheInstruction : Obligations.DecodeOfEncodeIsTheInstruction := by
  intro p i h
  cases i
  case sample d =>
    have hd : BitVec.ofNat 16 d.toNat = d := by rw [BitVec.ofNat_toNat, BitVec.setWidth_eq]
    exact (decodeSmp_eq_instr p _ _).2 ⟨of_decide_eq_true h, by rw [hd]⟩
  case clear => exact decode_encode_toInstr p .clear h
  case renderDigits => exact decode_encode_toInstr p .renderDigits h
  case renderNumber lz => exact decode_encode_toInstr p (.renderNumber lz) h
  case display pos lenm1 => exact decode_encode_toInstr p (.display pos lenm1) h
  case writeFixed pos => exact decode_encode_toInstr p (.writeFixed pos) h
  case tmAuto | tmFixed | tmAddr | tmDisp => exact decode_encode_of_onWire p _ rfl
  case rdAvg | rdStatus | rdBright | rdCmd | rdData | rdValue | rdSegq | rdSum =>
    exact decode_readAccess p _ _ (by decide) (by decide) rfl
  case wrAvg | wrStatus | wrBright | wrCmd | wrData | wrValue | wrSegq | wrSum =>
    exact decode_writeAccess p _ _ _ (by decide) (by decide) rfl

/-- Settles O28: by the port of the word. -/
theorem decodedWordIsItsEncoding : Obligations.DecodedWordIsItsEncoding := by
  intro p pw i h
  cases pw with
  | bus a =>
    obtain ⟨hn, hrow⟩ := decodeBus_eq_instr a i h
    obtain ⟨hwf, henc⟩ := encode_of_decodeDescriptor p a.desc a.data i hrow
    exact ⟨hwf, hn, henc⟩
  | smp d =>
    obtain ⟨hd, rfl⟩ := (decodeSmp_eq_instr p d i).1 h
    have hmod : (BitVec.ofNat 16 d).toNat = d := Nat.mod_eq_of_lt (hd.trans_le (two_pow_sampleW_le p))
    exact ⟨decide_eq_true (hmod.symm ▸ hd), congrArg PortWord.smp hmod⟩
  | cmd w =>
    obtain ⟨c, hc, rfl⟩ := (decode_cmd_eq_instr p w i).1 h
    obtain ⟨rfl, hl⟩ := (decodeCmd_eq_some_iff w c).1 hc
    exact ⟨(wf_toInstr p c).trans hl, encode_toInstr c⟩
  | tm b =>
    have hb := sentByte_of_decodeTm b i ((decode_tm_eq_instr p b i).1 h)
    exact (encode_of_sentByte p b i hb).symm

/-- A table word that is the encoding of a well-formed operation names it (log entry 9). -/
theorem decodeTableWord_of_encode (nbits w : Nat) (i : Instr) (hw : tablePortWord nbits w = some (encode i))
    (hi : i.wf Params.standard = true) : decodeTableWord nbits w = some i :=
  (decodeTableWord_eq_some nbits w i).2 ⟨_, hw, decodeOfEncodeIsTheInstruction _ i hi⟩

/-- Settles O30: each word is the encoding of its operation. -/
theorem writtenWordsDecodeToTheirRows : Obligations.WrittenWordsDecodeToTheirRows := by
  refine ⟨?_, ?_, ?_, ?_, ?_, ?_, ?_, ?_⟩
  all_goals exact decodeTableWord_of_encode _ _ _ rfl rfl

end Sys2Proof.Machine
end

section
/-! SUPPORT. The averager's three statements: what SAMPLE does, the mean over a run of samples, and the reads of AVG
between samples (R102-R113). -/

namespace Sys2Proof.Machine

/-! ## SAMPLE -/

/-- Settles O9: SAMPLE answers `insertSample`, whose registers have a lemma each. -/
theorem sampleInsertsAndPublishes : Obligations.SampleInsertsAndPublishes := by
  intro s d h hd
  have hsum := insertSample_sumr_toNat d s h
  refine ⟨insertSample d s, (sampleEvent_next d s _).2 ⟨hd, rfl⟩, fun j => ?slot, fun j hj => ?sum,
    insertSample_cur_toNat d s, insertSample_fill_toNat d s, ?mean, rfl⟩
  case slot => simp only [insertSample_slot, eq_comm]
  case sum =>
    obtain ⟨-, hold, -⟩ := h
    have hevicted : s.buf[j] = s.buf[s.cur.toNat]'s.cur.isLt := by simp only [Fin.getElem_fin, hj]
    rw [hsum, hold, hevicted]
    exact bufSum_insertSample d s
  case mean => rw [hsum]; exact insertSample_avgr_toNat d s h

/-! ## A run of samples (R110) -/

/-- Replacing the entry at `c` of a ring and moving the cursor past it drops the oldest entry and appends the new one,
in the order from the cursor on. -/
theorem rotate_set_succ {α : Type} (l : List α) (c : Nat) (hc : c < l.length) (a : α) :
    (l.set c a).rotate (c + 1) = (l.rotate c).tail ++ [a] := by
  obtain ⟨before, x, after, rfl, rfl⟩ : ∃ before x after, l = before ++ x :: after ∧ before.length = c :=
    ⟨l.take c, l[c], l.drop (c + 1), by simp, List.length_take_of_le hc.le⟩
  have hset : (before ++ x :: after).set before.length a = (before ++ [a]) ++ after := by simp
  have hsucc : before.length + 1 = (before ++ [a]).length := by simp
  rw [hset, hsucc, List.rotate_append_length_eq, List.rotate_append_length_eq, List.cons_append, List.tail_cons,
    List.append_assoc]

/-- The slots' values from the oldest on: in the order from CUR, the slot that the next sample replaces (R23). -/
def slotsByAge (s : State) : List Nat := (s.buf.toList.map BitVec.toNat).rotate s.cur.toNat

/-- The window has 32 slots (R21). -/
@[simp] theorem slotsByAge_length (s : State) : (slotsByAge s).length = 32 := by simp [slotsByAge]

/-- The order of the slots does not matter to their sum. -/
theorem sum_slotsByAge (s : State) : (slotsByAge s).sum = bufSum s := (List.rotate_perm _ _).sum_eq

/-- SAMPLE drops the oldest value of the window and appends the new one (R102). -/
theorem slotsByAge_insertSample (d : Sample) (s : State) :
    slotsByAge (insertSample d s) = (slotsByAge s).tail ++ [d.toNat] := by
  have hc : s.cur.toNat < (s.buf.toList.map BitVec.toNat).length := by simpa using s.cur.isLt
  have hbuf : (insertSample d s).buf.toList.map BitVec.toNat
      = (s.buf.toList.map BitVec.toNat).set s.cur.toNat d.toNat := by
    rw [insertSample_buf, Vector.toList_set, List.map_set]
  have hcur : (insertSample d s).cur.toNat
      = (s.cur.toNat + 1) % ((s.buf.toList.map BitVec.toNat).set s.cur.toNat d.toNat).length := by
    simp
  rw [slotsByAge, hbuf, hcur, List.rotate_mod, rotate_set_succ _ _ hc, slotsByAge]

/-- The state after a run of samples. -/
def insertSamples (ds : List Nat) (s : State) : State :=
  ds.foldl (fun s d => insertSample (BitVec.ofNat 16 d) s) s

@[simp] theorem insertSamples_nil (s : State) : insertSamples [] s = s := rfl

@[simp] theorem insertSamples_cons (d : Nat) (ds : List Nat) (s : State) :
    insertSamples (d :: ds) s = insertSamples ds (insertSample (BitVec.ofNat 16 d) s) := rfl

/-- A run of samples that fit runs without a stop, each sample one SAMPLE step (R102, R225). -/
theorem run_sampleInputs (ds : List Nat) (s : State) (hd : ∀ d ∈ ds, d < 2 ^ s.params.sampleW) :
    Host.Core.run core ds.length { s with inputs := sampleInputs ds }
      = .next (insertSamples ds { s with inputs := [] }) := by
  induction ds generalizing s with
  | nil => rfl
  | cons d ds ih =>
    obtain ⟨hfirst, hrest⟩ := List.forall_mem_cons.1 hd
    have hstep := (step_sample_eq_next { s with inputs := sampleInputs (d :: ds) } _ d _ rfl).2 ⟨hfirst, rfl⟩
    exact (run_of_step _ _ _ hstep).trans (ih (insertSample (BitVec.ofNat 16 d) s) hrest)

/-- FILL counts the samples of the run up to the window's length (R24). -/
theorem insertSamples_fill_toNat (ds : List Nat) (s : State) (h : s.fill.toNat ≤ 32) :
    (insertSamples ds s).fill.toNat = min (s.fill.toNat + ds.length) 32 := by
  induction ds generalizing s with
  | nil => simp [h]
  | cons d ds ih =>
    have hfill := insertSample_fill_toNat (BitVec.ofNat 16 d) s
    rw [insertSamples_cons, ih _ (by omega), hfill, List.length_cons]
    omega

/-- A run of samples that fit keeps the AVG unit's invariant. -/
theorem insertSamples_avgInv (ds : List Nat) (s : State) (hd : ∀ d ∈ ds, d < 2 ^ s.params.sampleW) (h : AvgInv s) :
    AvgInv (insertSamples ds s) := by
  induction ds generalizing s with
  | nil => exact h
  | cons d ds ih =>
    obtain ⟨hfirst, hrest⟩ := List.forall_mem_cons.1 hd
    exact ih _ hrest (insertSample_avgInv _ s h (lt_of_le_of_lt (Nat.mod_le d _) hfirst))

/-- A run of samples moves the window over the old values and the samples: of both in a row its slots hold the last 32
(R110). -/
theorem slotsByAge_insertSamples (ds : List Nat) (s : State) (hd : ∀ d ∈ ds, d < 2 ^ 16) :
    slotsByAge (insertSamples ds s) = (slotsByAge s ++ ds).drop ds.length := by
  induction ds generalizing s with
  | nil => simp
  | cons d ds ih =>
    obtain ⟨hfirst, hrest⟩ := List.forall_mem_cons.1 hd
    have hne : slotsByAge s ≠ [] := List.ne_nil_of_length_pos (by simp)
    rw [insertSamples_cons, ih _ hrest, slotsByAge_insertSample, BitVec.toNat_ofNat, Nat.mod_eq_of_lt hfirst,
      List.length_cons, Nat.add_comm, ← List.drop_drop, List.drop_one, List.tail_append_of_ne_nil hne]
    simp

/-- After reset every slot holds 0 (R48). -/
theorem slotsByAge_resetWith (p : Params) : slotsByAge (State.resetWith p) = List.replicate 32 0 := rfl

/-- After a run of samples from reset the slots sum to the last 32 samples: the older ones have left, and the slots no
sample has reached hold 0 (R110). -/
theorem bufSum_insertSamples_resetWith (p : Params) (ds : List Nat) (hd : ∀ d ∈ ds, d < 2 ^ 16) :
    bufSum (insertSamples ds (State.resetWith p)) = (lastOf Config.window ds).sum := by
  rw [← sum_slotsByAge, slotsByAge_insertSamples ds _ hd, slotsByAge_resetWith, List.drop_append, List.drop_replicate,
    List.sum_append, List.sum_replicate, List.length_replicate, smul_zero, zero_add, lastOf, Config.window]

/-- Settles O12: after the run AVGR is the slots' sum over FILL by the unit's invariant, and both are known. -/
theorem averageIsTheMeanOfTheWindow : Obligations.AverageIsTheMeanOfTheWindow := by
  intro p ds hd
  refine ⟨insertSamples ds (State.resetWith p), run_sampleInputs ds (State.resetWith p) hd, ?_⟩
  obtain ⟨-, hsumr, -, -, -, havgr⟩ := insertSamples_avgInv ds (State.resetWith p) hd (avgInv_resetWith p)
  have hfill : (insertSamples ds (State.resetWith p)).fill.toNat = min ds.length Config.window := by
    rw [insertSamples_fill_toNat ds (State.resetWith p) (Nat.zero_le 32)]
    exact congrArg (min · 32) (Nat.zero_add ds.length)
  have hempty : min ds.length Config.window = 0 ↔ ds = [] := by simp [Config.window]
  have hsum := bufSum_insertSamples_resetWith p ds fun d h => (hd d h).trans_le (two_pow_sampleW_le p)
  rw [havgr, hsumr, hsum, hfill, windowMean]
  simp only [hempty]

/-! ## Reads of AVG (R107, R111) -/

/-- The state a turn goes on from, its schedule entry used. -/
def Turn.state : Turn → State
  | .word _ s | .item s | .receiver _ s | .reset _ s | .idle s => s

/-- No entry of a schedule is, or can bring about, a sample or a reset. -/
def SparesAverager (inputs : List Input) : Prop := ∀ x ∈ inputs, x.writesAverager = false

/-- An operation leaves the schedule. -/
theorem exec_inputs (i : Instr) (s t : State) (h : exec i s = .next t) : t.inputs = s.inputs := by
  cases exec_effect i s t h with
  | answered | ignored | storedLevel | storedData | storedValue | storedSegcode | sampled => rfl
  | commanded c => exact displayCommand_inputs c s
  | sent b t hi hf hp ht => exact seqStep_inputs s t ht

/-- So does a port word that names no operation. -/
theorem onReject_inputs (r : Reject) (s t : State) (h : onReject r s = .next t) : t.inputs = s.inputs := by
  obtain ⟨off, n, dir, rfl⟩ | rfl | hseq := onReject_next r s t h
  · rfl
  · rfl
  · exact seqStep_inputs s t hseq

/-- A step leaves the schedule as its turn does: what comes after the fetch puts nothing into it. -/
theorem step_inputs (s t : State) (h : step s = .next t) : t.inputs = (fetch s).state.inputs := by
  unfold step at h
  generalize fetch s = turn at h ⊢
  cases turn with
  | word pw s' =>
    cases hd : decode s'.params pw with
    | instr i => exact exec_inputs i s' t (by simpa only [hd] using h)
    | rejected r => exact onReject_inputs r s' t (by simpa only [hd] using h)
  | item s' => exact seqStep_inputs s' t h
  | receiver r s' => cases h; rfl
  | reset during s' =>
    obtain ⟨acks, resp, rfl⟩ := underReset_next during _ t h
    rfl
  | idle s' => cases h; rfl

/-- The sequencer's turn goes on from the state it is taken in. -/
@[simp] theorem sequencerTurn_state (s : State) : (sequencerTurn s).state = s := by
  unfold sequencerTurn
  split
  case h_2 => split <;> rfl
  all_goals rfl

/-- The schedule entry of what happens between two polls brings what that is (R95). -/
@[simp] theorem toInput_writesAverager (m : Meanwhile) : m.toInput.writesAverager = m.writesAverager := by
  cases m <;> rfl

/-- The next round of a poll that brings neither a sample nor a reset brings neither (R95). -/
theorem nextRound_sparesAverager (w : Wait) (h : (Input.poll w).writesAverager = false) :
    SparesAverager w.nextRound := by
  obtain ⟨rounds, fair⟩ := w
  cases rounds with
  | nil => cases fair <;> simp [SparesAverager, Wait.nextRound, Input.writesAverager]
  | cons acts rounds =>
    have hboth : acts.any Meanwhile.writesAverager = false ∧ (Input.poll ⟨rounds, fair⟩).writesAverager = false := by
      simpa only [Input.writesAverager, List.any_cons, Bool.or_eq_false_iff] using h
    obtain ⟨hacts, hpoll⟩ := hboth
    refine List.forall_mem_append.2 ⟨List.forall_mem_map.2 fun m hm => ?_, List.forall_mem_singleton.2 hpoll⟩
    rw [toInput_writesAverager]
    exact Bool.eq_false_iff.2 (List.any_eq_false.1 hacts m hm)

/-- A turn leaves a schedule without samples and resets so. -/
theorem fetch_sparesAverager (s : State) (h : SparesAverager s.inputs) : SparesAverager (fetch s).state.inputs := by
  match hin : s.inputs with
  | [] => simpa only [fetch, hin, sequencerTurn_state] using h
  | x :: rest =>
    obtain ⟨hx, hrest⟩ : x.writesAverager = false ∧ SparesAverager rest := List.forall_mem_cons.1 (hin ▸ h)
    cases x with
    | event e =>
      cases e with
      | sample | host | ack => simpa only [fetch, hin, Turn.state] using hrest
      | seq => simpa only [fetch, hin, sequencerTurn_state] using hrest
      | seqAll =>
        simp only [fetch, hin]
        split
        · exact hrest
        · rwa [sequencerTurn_state]
    | reset => simpa only [fetch, hin, Turn.state] using hrest
    | poll w =>
      simp only [fetch, hin]
      split
      · exact List.forall_mem_append.2 ⟨nextRound_sparesAverager w hx, hrest⟩
      · exact hrest

/-- What two runs one after the other both leave, they leave together. -/
theorem SameAverager.trans {s t u : State} (h : SameAverager s t) (h' : SameAverager t u) : SameAverager s u :=
  ⟨h'.buf.trans h.buf, h'.sumr.trans h.sumr, h'.cur.trans h.cur, h'.fill.trans h.fill, h'.avgr.trans h.avgr⟩

/-- A step whose schedule holds no sample and no reset leaves the AVG unit (R113). -/
theorem step_sameAverager (s t : State) (h : SparesAverager s.inputs) (hstep : step s = .next t) :
    SameAverager s t := by
  have hhead : ∀ x rest, s.inputs = x :: rest → x.writesAverager = false :=
    fun x rest hin => h x (hin ▸ List.mem_cons_self)
  obtain ⟨hbuf, hsumr, hcur, hfill, havgr⟩ := onlySampleAndResetWriteTheAverager s t hstep
    (fun d rest hin => by cases hhead _ rest hin) (fun ds rest hin => by cases hhead _ rest hin)
  exact ⟨hbuf, hsumr, hcur, hfill, havgr⟩

/-- So does every run of such a schedule: no step puts a sample or a reset into it. -/
theorem run_sameAverager (n : Nat) (s t : State) (h : SparesAverager s.inputs)
    (hrun : Host.Core.run core n s = .next t) : SameAverager s t := by
  induction n generalizing s with
  | zero => cases hrun; exact ⟨rfl, rfl, rfl, rfl, rfl⟩
  | succ n ih =>
    obtain ⟨u, hstep, hrest⟩ := (run_succ_eq_next n s t).1 hrun
    have hu : SparesAverager u.inputs := step_inputs s u hstep ▸ fetch_sparesAverager s h
    exact (step_sameAverager s u h hstep).trans (ih u hu hrest)

/-- Settles O14: both reads answer AVGR, which the run leaves. -/
theorem averageReadIsIdempotent : Obligations.AverageReadIsIdempotent := by
  intro n s t h hrun
  refine ⟨s.avgr.setWidth 32, rfl, ?_⟩
  rw [← (run_sameAverager n s t h hrun).avgr]
  rfl

end Sys2Proof.Machine
end

section
/-! SUPPORT. The segment lookup, the cells of a rendered number, and the SEGQ register (R131-R140, R172, R174). -/

namespace Sys2Proof.Machine

/-! ## `digitToSegments` (R131) -/

/-- A digit's code has the table's bitmap. -/
theorem digitToSegments_natCast (q : Params) (n : Nat) (h : n < 10) :
    digitToSegments q (n : Int) = q.digitSeg[n] := by
  have hdigit : 0 ≤ (n : Int) ∧ (n : Int) ≤ 9 := by omega
  simp only [digitToSegments, dif_pos hdigit, Int.toNat_natCast]

/-- The code -1 has the minus bitmap. -/
@[simp] theorem digitToSegments_neg_one (q : Params) : digitToSegments q (-1) = q.minusSeg := rfl

/-- Every other code is blank. -/
theorem digitToSegments_of_no_digit (q : Params) (d : Int) (h : d < -1 ∨ 9 < d) : digitToSegments q d = 0#8 := by
  have hdigit : ¬(0 ≤ d ∧ d ≤ 9) := by omega
  have hminus : d ≠ -1 := by omega
  simp only [digitToSegments, dif_neg hdigit, if_neg hminus]

/-- Settles O15: the three ranges of the code, a lemma each. -/
theorem digitToSegmentsIsTheTable : Obligations.DigitToSegmentsIsTheTable := fun q =>
  ⟨fun d => digitToSegments_natCast q d d.isLt, digitToSegments_neg_one q, digitToSegments_of_no_digit q⟩

/-! ## The SEGQ register (R139, R140) -/

/-- Settles O5: each write is a store and its completion. -/
theorem plainRegisterWritesStore : Obligations.PlainRegisterWritesStore :=
  fun _ _ => ⟨rfl, rfl, rfl⟩

/-- A read of SEGQ answers the lookup of the code, its upper bits 0 (R139). -/
theorem exec_rdSegq (s : State) :
    exec .rdSegq s = .next (respond (BitVec.ofNat 32 (digitToSegments s.params s.segcode.toInt).toNat) s) := by
  rw [BitVec.ofNat_toNat]
  rfl

/-- A word above the digits is a code above the digits or a negative one, and -1 is the word of all ones alone. -/
theorem toInt_not_digit (w : Word) (hbig : 10 ≤ w.toNat) (hones : w ≠ 0xFFFFFFFF#32) :
    w.toInt < -1 ∨ 9 < w.toInt := by
  have hne : w.toNat ≠ 0xFFFFFFFF := fun h => hones (BitVec.eq_of_toNat_eq h)
  have hlt := w.isLt
  rw [BitVec.toInt_eq_toNat_cond]
  split <;> omega

/-- Settles O6: the code is the whole word as a signed integer, and its range selects the bitmap. -/
theorem segqReadLooksUpTheWholeCode : Obligations.SegqReadLooksUpTheWholeCode := by
  intro s
  refine ⟨digitToSegments s.params s.segcode.toInt, exec_rdSegq s, fun d hd => ?digit, fun hones => ?minus,
    fun hbig hones => digitToSegments_of_no_digit _ _ (toInt_not_digit _ hbig hones)⟩
  case digit =>
    have hcode : s.segcode.toInt = (d.val : Int) := by
      rw [BitVec.toInt_eq_toNat_of_lt (by omega), hd]
    rw [hcode]
    exact digitToSegments_natCast _ _ d.isLt
  case minus =>
    rw [hones]
    rfl

/-! ## `renderCells` (R135-R137) -/

/-- Settles O16: the glyph's bytes are the lanes of a constant, so no table is asked. -/
theorem outOfRangeRendersTheOverflowGlyph : Obligations.OutOfRangeRendersTheOverflowGlyph := by
  intro q v lz h
  have hglyph : overflowCells = [0x3F#8, 0x1C#8, 0x79#8, 0x50#8] := by decide
  rw [renderCells, if_pos (by exact h), hglyph]

/-- The digit loop from the rightmost of four blank cells, turn by turn: without leading zeros it ends after the most
significant digit, and a negative number's ends before cell 0 when no digit is left for it (R136). -/
theorem digitLoop_from_blank (q : Params) (neg lz : Bool) (a : Nat) :
    digitLoop q neg lz 3 a [0#8, 0#8, 0#8, 0#8]
      = if a < 10 ∧ lz = false then ([0#8, 0#8, 0#8, digitToSegments q (a % 10 : Nat)], some 2)
        else if a < 100 ∧ lz = false then
          ([0#8, 0#8, digitToSegments q (a / 10 % 10 : Nat), digitToSegments q (a % 10 : Nat)], some 1)
        else if a < 1000 ∧ (lz = false ∨ neg = true) then
          ([0#8, digitToSegments q (a / 100 % 10 : Nat), digitToSegments q (a / 10 % 10 : Nat),
            digitToSegments q (a % 10 : Nat)], some 0)
        else
          ([digitToSegments q (a / 1000 % 10 : Nat), digitToSegments q (a / 100 % 10 : Nat),
            digitToSegments q (a / 10 % 10 : Nat), digitToSegments q (a % 10 : Nat)], none) := by
  have htens : a / 10 = 0 ↔ a < 10 := by omega
  have hhundreds : a / 100 = 0 ↔ a < 100 := by omega
  have hthousands : a / 1000 = 0 ↔ a < 1000 := by omega
  simp [digitLoop, Nat.div_div_eq_div_mul, htens, hhundreds, hthousands]

/-- The sign's place: a negative number has its minus in the cell that the digit loop stopped before (R136). -/
def placeSign (q : Params) (neg : Bool) : List Byte × Option Nat → List Byte
  | (c, some p) => if neg then c.set p q.minusSeg else c
  | (c, none) => c

/-- A number that is not negative keeps the digit loop's cells. -/
theorem placeSign_false (q : Params) (r : List Byte × Option Nat) : placeSign q false r = r.1 := by
  rcases r with ⟨c, _ | p⟩ <;> rfl

/-- In range, the cells are the digit loop's with the sign placed (R136). -/
theorem renderCells_of_range (q : Params) (v : Int) (lz : Bool) (h : -999 ≤ v ∧ v ≤ 9999) :
    renderCells q v lz
      = placeSign q (decide (v < 0)) (digitLoop q (decide (v < 0)) lz 3 v.natAbs [0#8, 0#8, 0#8, 0#8]) := by
  have hrange : ¬(v < Config.vMin ∨ Config.vMax < v) := by simp only [Config.vMin, Config.vMax]; omega
  simp only [renderCells, if_neg hrange]
  rfl

/-- The cells of a number from 0 to 9999. -/
theorem renderCells_natCast (q : Params) (a : Nat) (h : a ≤ 9999) (lz : Bool) :
    renderCells q (a : Int) lz = (digitLoop q false lz 3 a [0#8, 0#8, 0#8, 0#8]).1 := by
  have hneg : ¬(a : Int) < 0 := by omega
  rw [renderCells_of_range q a lz (by omega), decide_eq_false hneg, placeSign_false, Int.natAbs_natCast]

/-- The cells of a number from -999 to -1. -/
theorem renderCells_neg_natCast (q : Params) (a : Nat) (hpos : 1 ≤ a) (h : a ≤ 999) (lz : Bool) :
    renderCells q (-(a : Int)) lz = placeSign q true (digitLoop q true lz 3 a [0#8, 0#8, 0#8, 0#8]) := by
  have hneg : -(a : Int) < 0 := by omega
  rw [renderCells_of_range q (-a) lz (by omega), decide_eq_true hneg, Int.natAbs_neg, Int.natAbs_natCast]

/-- Settles O17: the digit loop's cells, which without leading zeros depend on the number of digits. -/
theorem nonNegativeValuesRenderTheirDigits : Obligations.NonNegativeValuesRenderTheirDigits := by
  intro q a h
  simp only [renderCells_natCast q a h, digitLoop_from_blank]
  refine ⟨by simp, ?_⟩
  by_cases hone : a < 10
  · have htwo : a < 100 := by omega
    have hthree : a < 1000 := by omega
    simp [hone, htwo, hthree]
  by_cases htwo : a < 100
  · have hthree : a < 1000 := by omega
    simp [hone, htwo, hthree]
  by_cases hthree : a < 1000
  · simp [hone, htwo, hthree]
  · simp [hone, htwo, hthree]

/-- Settles O18: at most three digits leave the minus its cell, which without leading zeros depends on their number. -/
theorem negativeValuesRenderMinusAndDigits : Obligations.NegativeValuesRenderMinusAndDigits := by
  intro q a hpos h
  have hfits : a < 1000 := by omega
  simp only [renderCells_neg_natCast q a hpos h, digitLoop_from_blank]
  refine ⟨by simp [placeSign, hfits], ?_⟩
  by_cases hone : a < 10
  · have htwo : a < 100 := by omega
    simp [placeSign, hone, htwo]
  by_cases htwo : a < 100
  · simp [placeSign, hone, htwo]
  · simp [placeSign, hone, htwo, hfits]

end Sys2Proof.Machine
end

section
/-! SUPPORT. The outcome of a display command in the terms of R162 and R163, for the operation and for the CMD write of its
word alike, and the statements about BRIGHT and the five commands (R160-R170). -/

namespace Sys2Proof.Machine

/-! ## BRIGHT (R160, R171) -/

/-- The clamped level fits its three bits (R160). -/
theorem clampLevel_toNat (v : Word) : (clampLevel v).toNat = min v.toNat 7 := by
  simp only [clampLevel, Config.levelMax, BitVec.toNat_ofNat]
  omega

/-- RD.BRIGHT answers LEVEL as a number (R171). -/
theorem exec_rdBright (s : State) :
    exec .rdBright s = .next { s with resp := .data (BitVec.ofNat 32 s.level.toNat) } := by
  rw [BitVec.ofNat_toNat]
  rfl

/-- Settles O4: the stored level is the clamped one, and RD.BRIGHT widens it. -/
theorem brightnessWriteClamps : Obligations.BrightnessWriteClamps := by
  intro s v
  refine ⟨_, rfl, clampLevel_toNat v, rfl, ?_⟩
  rw [← clampLevel_toNat]
  exact exec_rdBright _

/-! ## Rejection and acceptance (R161-R164) -/

/-- While BUSY a display command is rejected, whatever its word (R162). -/
theorem displayCommand_of_busy (c : Option Command) (s : State) (hp : s.prog ≠ []) :
    displayCommand c s = commandRejected s := by
  obtain ⟨-, hd⟩ | ⟨hidle, -⟩ | ⟨hidle, -⟩ := displayCommand_cases c s
  · exact hd
  · exact absurd hidle hp
  · exact absurd hidle hp

/-- An illegal display command is rejected, BUSY or not (R162, R164). -/
theorem displayCommand_of_illegal (c : Option Command) (s : State) (hc : ∀ c', c = some c' → c'.legal = false) :
    displayCommand c s = commandRejected s := by
  obtain ⟨-, hd⟩ | ⟨-, -, hd⟩ | ⟨-, c', rfl, hl, -⟩ := displayCommand_cases c s
  · exact hd
  · exact hd
  · exact absurd hl (by simp [hc c' rfl])

/-- A legal display command is accepted while idle (R163). -/
theorem displayCommand_of_legal (c : Command) (s : State) (hp : s.prog = []) (hc : c.legal = true) :
    displayCommand (some c) s = complete (accept c s) := by
  obtain ⟨hbusy, -⟩ | ⟨-, hill, -⟩ | ⟨-, c', hc', -, hd⟩ := displayCommand_cases (some c) s
  · exact absurd hp hbusy
  · exact absurd hc (by simp [hill c rfl])
  · rw [hd, Option.some.inj hc']

/-- The wire program is the three transactions R163 lists. -/
theorem wireProgram_eq_threeTransactions (sn : Snap) :
    wireProgram sn = threeTransactions sn.mode (BitVec.ofNat 8 (0xC0 + sn.pos.toNat)) sn.cells
      (BitVec.ofNat 8 (0x88 + sn.level.toNat)) := by
  simp [wireProgram, threeTransactions, addrByte_eq_ofNat, dispByte_eq_ofNat]

/-- Acceptance gives the state R163 lists, with the mode byte, start cell and cells of the command. -/
theorem complete_accept_eq_acceptedWith (c : Command) (s : State) :
    complete (accept c s) = acceptedWith (commandMode c) (commandPos c).toNat (commandCells s c) s := by
  simp [complete, accept, acceptedWith, wireProgram_eq_threeTransactions, latch]

/-- A legal command, as its operation or as the CMD write of its word: accepted while idle, rejected while BUSY. -/
theorem command_outcome (s : State) (c : Command) (w : Word) (o : Host.Outcome State Fault Refusal)
    (hw : decodeCmd w = some c) (ho : o = exec c.toInstr s ∨ o = exec (.wrCmd w) s) :
    (s.prog = [] → o = .next (acceptedWith (commandMode c) (commandPos c).toNat (commandCells s c) s))
      ∧ (s.prog ≠ [] → o = .next (commandRejected s)) := by
  have hexec : o = .next (displayCommand (some c) s) := by
    rw [exec_wrCmd_of_decodeCmd w c hw, or_self] at ho
    rw [ho, exec_toInstr]
  refine ⟨fun hp => ?_, fun hp => ?_⟩
  · rw [hexec, displayCommand_of_legal c s hp (decodeCmd_legal w c hw), complete_accept_eq_acceptedWith]
  · rw [hexec, displayCommand_of_busy _ s hp]

/-- Settles O24: the BUSY test comes before the decode. -/
theorem commandWhileBusyIsRejected : Obligations.CommandWhileBusyIsRejected :=
  fun s w hp => congrArg Host.Outcome.next (displayCommand_of_busy (decodeCmd w) s hp)

/-- A word of no row of the command table, or with POS + LEN > 4, names no command (R87). -/
theorem decodeCmd_eq_none (w : Word) (hclear : w ≠ 1#32) (hdigits : w ≠ 2#32)
    (hnumber : w &&& 0xFFFFFFEF#32 ≠ 3#32) (hfixed : w &&& 0xFFFFFCFF#32 ≠ 5#32)
    (hdisplay : w &&& 0xFFFFCCFF#32 = 4#32 → 4 < (w.extractLsb' 8 2).toNat + (w.extractLsb' 12 2).toNat + 1) :
    decodeCmd w = none := by
  unfold decodeCmd
  rw [if_neg hclear, if_neg hdigits, if_neg hnumber]
  by_cases hrow : w &&& 0xFFFFCCFF#32 = 4#32
  · rw [if_pos hrow]
    refine if_neg fun hl => ?_
    have hfits := (legal_display_iff _ _).1 hl
    have hlong := hdisplay hrow
    omega
  · rw [if_neg hrow, if_neg hfixed]

/-- Settles O25: the word decodes to no command. -/
theorem illegalCommandIsRejected : Obligations.IllegalCommandIsRejected := by
  intro s w _ hclear hdigits hnumber hfixed hdisplay
  show Host.Outcome.next (displayCommand (decodeCmd w) s) = _
  rw [decodeCmd_eq_none w hclear hdigits hnumber hfixed hdisplay, displayCommand_of_illegal none s (by simp)]
  rfl

/-! ## The five commands (R166-R170) -/

/-- Byte lane `i` of a word, as a number (R10). -/
theorem lane_eq_ofNat (w : Word) (i : Nat) : lane w i = BitVec.ofNat 8 (w.toNat / 2 ^ (8 * i)) := by
  rw [lane, BitVec.extractLsb', Nat.shiftRight_eq_div_pow]

/-- Settles O19 by `command_outcome`. -/
theorem clearSendsBlankCells : Obligations.ClearSendsBlankCells :=
  fun s o ho => command_outcome s .clear 0x00000001#32 o rfl ho

/-- Settles O20 by `command_outcome`, the four lanes as numbers. -/
theorem renderDigitsSendsTheDataLanes : Obligations.RenderDigitsSendsTheDataLanes := by
  intro s o ho
  have hlanes : commandCells s .renderDigits =
      [ BitVec.ofNat 8 s.data.toNat, BitVec.ofNat 8 (s.data.toNat / 256),
        BitVec.ofNat 8 (s.data.toNat / 65536), BitVec.ofNat 8 (s.data.toNat / 16777216) ] := by
    simp [commandCells, lanes, lane_eq_ofNat]
  rw [← hlanes]
  exact command_outcome s .renderDigits 0x00000002#32 o rfl ho

/-- Settles O21 by `command_outcome`, with either policy's word, and the four cells by `renderCells_length`. -/
theorem renderNumberSendsTheRenderedValue : Obligations.RenderNumberSendsTheRenderedValue := by
  intro s lz o ho
  have hword : decodeCmd (if lz then 0x00000013#32 else 0x00000003#32) = some (.renderNumber lz) := by
    cases lz <;> rfl
  exact ⟨renderCells_length _ _ _, command_outcome s (.renderNumber lz) _ o hword ho⟩

/-- The word of DISPLAY(p, l), which names it when its cells fit and nothing otherwise (R87 (b)). -/
theorem decodeCmd_display_ofNat (p l : Nat) (hp : p ≤ 3) (hl : 1 ≤ l) (hl4 : l ≤ 4) :
    decodeCmd (BitVec.ofNat 32 (4 + 256 * p + 4096 * (l - 1)))
      = if p + l ≤ 4 then some (.display (BitVec.ofNat 2 p) (BitVec.ofNat 2 (l - 1))) else none := by
  have hall : ∀ p < 4, ∀ lenm1 < 4, decodeCmd (BitVec.ofNat 32 (4 + 256 * p + 4096 * lenm1))
      = if p + (lenm1 + 1) ≤ 4 then some (.display (BitVec.ofNat 2 p) (BitVec.ofNat 2 lenm1)) else none := by decide
  rw [hall p (by omega) (l - 1) (by omega), Nat.sub_add_cancel hl]

/-- The cells of DISPLAY(p, l), as numbers (R169). -/
theorem commandCells_display (s : State) (p l : Nat) (hp : p ≤ 3) (hl : 1 ≤ l) (hl4 : l ≤ 4) :
    commandCells s (.display (BitVec.ofNat 2 p) (BitVec.ofNat 2 (l - 1)))
      = (List.range l).map fun j => BitVec.ofNat 8 (s.data.toNat / 2 ^ (8 * (p + j))) := by
  have hp' : p % 2 ^ 2 = p := Nat.mod_eq_of_lt (by omega)
  have hl' : (l - 1) % 2 ^ 2 + 1 = l := by omega
  simp only [commandCells, BitVec.toNat_ofNat, hp', hl', lane_eq_ofNat]

/-- Settles O22: where the cells fit by `command_outcome`, and where they do not both the operation and its word are
illegal. -/
theorem displaySendsTheChosenLanes : Obligations.DisplaySendsTheChosenLanes := by
  intro s p l o hp hl hl4 ho
  have hword := decodeCmd_display_ofNat p l hp hl hl4
  have hpos : p % 2 ^ 2 = p := Nat.mod_eq_of_lt (by omega)
  by_cases hfits : p + l ≤ 4
  · rw [if_pos hfits] at hword
    obtain ⟨hidle, hbusy⟩ := command_outcome s _ _ o hword ho
    rw [commandCells_display s p l hp hl hl4] at hidle
    refine ⟨fun hs _ => ?_, fun hs => hbusy (hs.resolve_right (by omega))⟩
    have h := hidle hs
    rwa [commandPos, BitVec.toNat_ofNat, hpos] at h
  · rw [if_neg hfits] at hword
    refine ⟨fun _ h => absurd h hfits, fun _ => ?_⟩
    have hillegal : (Command.display (BitVec.ofNat 2 p) (BitVec.ofNat 2 (l - 1))).legal = false := by
      rw [Bool.eq_false_iff, Ne, legal_display_iff, BitVec.toNat_ofNat, BitVec.toNat_ofNat]
      omega
    obtain rfl | rfl := ho
    · exact congrArg _ (displayCommand_of_illegal _ s fun c hc => Option.some.inj hc ▸ hillegal)
    · exact congrArg _ (displayCommand_of_illegal _ s fun c hc => by simp [hword] at hc)

/-- Settles O23 by `command_outcome`, the one lane as a number. -/
theorem writeFixedSendsOneLane : Obligations.WriteFixedSendsOneLane := by
  intro s p o hp ho
  have hall : ∀ p < 4, decodeCmd (BitVec.ofNat 32 (5 + 256 * p)) = some (.writeFixed (BitVec.ofNat 2 p)) := by decide
  have hpos : (BitVec.ofNat 2 p).toNat = p := by
    rw [BitVec.toNat_ofNat]
    omega
  have h := command_outcome s _ _ o (hall p (by omega)) ho
  rwa [commandCells, commandPos, hpos, lane_eq_ofNat] at h

end Sys2Proof.Machine
end

section
/-! SUPPORT. One event of a command byte, whichever operation sends it (R177-R180, R190, R193). -/

namespace Sys2Proof.Machine

/-- The byte of each command-byte operation, as a number (R177-R180). -/
theorem sentByte_of_listed (i : Instr) (b : Byte)
    (h : (i = .tmAuto ∧ b = 0x40#8) ∨ (i = .tmFixed ∧ b = 0x44#8)
      ∨ (∃ pos : BitVec 2, i = .tmAddr pos ∧ b = BitVec.ofNat 8 (0xC0 + pos.toNat))
      ∨ (∃ level : BitVec 3, i = .tmDisp level ∧ b = BitVec.ofNat 8 (0x88 + level.toNat))) :
    sentByte i = some b := by
  obtain ⟨rfl, rfl⟩ | ⟨rfl, rfl⟩ | ⟨pos, rfl, rfl⟩ | ⟨level, rfl, rfl⟩ := h
  · rfl
  · rfl
  · rw [← addrByte_eq_ofNat]; rfl
  · rw [← dispByte_eq_ofNat]; rfl

/-- Where its byte is due, a command-byte operation is one sequencer step (R90, R190). -/
theorem exec_of_due (s : State) (i : Instr) (b : Byte) (rest : List Item) (hb : sentByte i = some b)
    (hf : s.firstByte = true) (hp : s.prog = .byte b :: rest) : exec i s = seqStep s := by
  rw [exec_sentByte i b hb, sendCommandByte, if_pos ⟨hf, by rw [hp, List.head?_cons]⟩]

/-- The sequencer step at an event of the head item. -/
theorem seqStep_of_event (s : State) (it : Item) (rest : List Item) (ev : WireEvent) (hp : s.prog = it :: rest)
    (hev : (events it s.ackok)[s.k]? = some ev) : seqStep s = .next (advance it rest (perform ev s)) :=
  (seqStep_next s _).2 (.inr ⟨it, rest, ev, hp, hev, rfl⟩)

/-- An event before the item's last leaves it at the head of PROG (R190). -/
theorem advance_of_not_last (it : Item) (rest : List Item) (s : State) (h : s.k + 1 ≠ (events it s.ackok).length) :
    advance it rest s = { s with k := s.k + 1 } := if_neg h

/-- The item's last event takes it from PROG (R190). -/
theorem advance_of_last (it : Item) (rest : List Item) (s : State) (h : s.k + 1 = (events it s.ackok).length) :
    advance it rest s = { s with prog := rest, k := 0, ackok := false, firstByte := decide (it = .start) } := if_pos h

/-- All that a sequencer event can change (R190, R195). -/
theorem advance_perform_frame (it : Item) (rest : List Item) (ev : WireEvent) (s : State) :
    advance it rest (perform ev s)
      = { s with
          prog := (advance it rest (perform ev s)).prog, k := (advance it rest (perform ev s)).k
          ackok := (advance it rest (perform ev s)).ackok, nack := (perform ev s).nack
          clkLvl := (perform ev s).clkLvl, dioMode := (perform ev s).dioMode, trace := (perform ev s).trace
          acks := (perform ev s).acks, draws := (perform ev s).draws
          firstByte := (advance it rest (perform ev s)).firstByte } := by
  rw [perform_frame ev s]
  unfold advance
  split <;> rfl

/-- Event 6j + 2 of a BYTE drives bit j, the least significant bit first (R193). -/
theorem getElem?_events_bit (b : Byte) (a : Bool) (j : Nat) (hj : j < 8) :
    (events (.byte b) a)[6 * j + 2]? = some (.dio (b.getLsbD j)) := by
  rw [events, List.getElem?_append_left (by rw [dataPhase_length]; omega)]
  interval_cases j <;> rfl

/-- A READ is not the last event of its item, acknowledged or not (R194). -/
theorem ne_read_of_last {it : Item} {a a' : Bool} {k : Nat} {ev : WireEvent} (hev : (events it a)[k]? = some ev)
    (hlast : k + 1 = (events it a').length) : ev ≠ .read := by
  rintro rfl
  obtain ⟨⟨b, rfl⟩, hk⟩ := getElem?_events_eq_read it _ _ hev
  rw [hk, events_byte_length] at hlast
  split at hlast <;> omega

section DueByte

variable {s : State} {b : Byte} {rest : List Item} {ev : WireEvent}

/-- No event before the event 56 ends a BYTE, acknowledged or not (R194). -/
theorem advance_perform_byte_of_lt (hk : s.k < 56) :
    advance (.byte b) rest (perform ev s) = { perform ev s with k := s.k + 1 } := by
  rw [advance_of_not_last, perform_k]
  rw [perform_k, events_byte_length]
  split <;> omega

/-- The last event of a BYTE, at 56 with the ack observed and at 58 without it, ends the BYTE (R194). -/
theorem advance_perform_byte_last (hev : (events (.byte b) s.ackok)[s.k]? = some ev)
    (hlast : s.k + 1 = (events (.byte b) s.ackok).length) :
    (advance (.byte b) rest (perform ev s)).prog = rest ∧ (advance (.byte b) rest (perform ev s)).k = 0 := by
  have hread := ne_read_of_last hev hlast
  rw [advance_of_last _ _ _ (by rw [perform_k, perform_ackok_of_ne_read ev s hread]; exact hlast)]
  exact ⟨rfl, rfl⟩

end DueByte

/-- Settles O33: the operation is the sequencer's step, one event of its byte. -/
theorem commandByteSendsOneEvent : Obligations.CommandByteSendsOneEvent := by
  intro s i b rest hi hf hp hk
  have hexec := exec_of_due s i b rest (sentByte_of_listed i b hi) hf hp
  refine ⟨?_, fun j hj hkj => ?_⟩
  · obtain ⟨ev, hev⟩ : ∃ ev, (events (.byte b) s.ackok)[s.k]? = some ev :=
      ⟨_, List.getElem?_eq_getElem (by rwa [events_byte_length])⟩
    obtain ⟨e, he⟩ := perform_trace ev s
    have hstep := hexec.trans (seqStep_of_event s _ rest ev hp hev)
    refine ⟨advance (.byte b) rest (perform ev s), e, hstep, ?_, ?_, ?_, ?_⟩
    · rw [← he]
      simpa using advance_perform_frame (.byte b) rest ev s
    · intro hlt
      rw [advance_perform_byte_of_lt hlt]
      exact ⟨perform_prog ev s, rfl⟩
    · intro ha h56
      exact advance_perform_byte_last hev (by rw [h56, ha]; rfl)
    · intro ha h58
      exact advance_perform_byte_last hev (by rw [h58, ha]; rfl)
  · have hev := getElem?_events_bit b s.ackok j hj
    rw [← hkj] at hev
    rw [hexec, seqStep_of_event s _ rest _ hp hev, advance_perform_byte_of_lt (by omega), perform_dio]

end Sys2Proof.Machine
end

section
/-! SUPPORT. The trace that the sequencer, left alone, leaves of the program it has to send: one run of events an item, by
the level its READ returns; and the event counts of an accepted command (R182, R190-R199, R261). -/

namespace Sys2Proof.Machine

/-! ## The trace of an item and of a program -/

/-- The TRACE entry of an event, where a READ returns `r` (R195). -/
def WireEvent.entry (r : Bool) : WireEvent → TraceEntry
  | .clk l => .clk l
  | .dio l => .dio l
  | .dioRel => .dioRel
  | .wait => .wait
  | .read => .read r

/-- The entries an item leaves in TRACE when its READ, if it has one, returns `r` (R192-R197). -/
def itemTrace (it : Item) (r : Bool) : List TraceEntry := (events it !r).map (WireEvent.entry r)

/-- The traces a program can leave: for each item its own, at some level of the READ (R190). -/
inductive ProgTrace : List Item → List TraceEntry → Prop
  | nil : ProgTrace [] []
  | cons (it : Item) (items : List Item) (r : Bool) (es : List TraceEntry) (h : ProgTrace items es) :
      ProgTrace (it :: items) (itemTrace it r ++ es)

/-- An event appends its entry to TRACE (R195). -/
theorem perform_trace_entry (ev : WireEvent) (s : State) :
    (perform ev s).trace = s.trace ++ [ev.entry (readLevel s)] := by
  cases ev
  case read => simp [perform, WireEvent.entry]
  all_goals rfl

/-- An event sets NACK exactly when its entry is a READ of 1 (R196). -/
theorem perform_nack (ev : WireEvent) (s : State) :
    (perform ev s).nack = (s.nack || decide (ev.entry (readLevel s) = .read true)) := by
  cases ev
  case read => cases h : readLevel s <;> simp [perform, WireEvent.entry, h]
  all_goals simp [perform, WireEvent.entry]

/-- Only a READ's entry depends on the level. -/
theorem entry_of_ne_read (ev : WireEvent) (r r' : Bool) (h : ev ≠ .read) : ev.entry r = ev.entry r' := by
  cases ev
  case read => exact absurd rfl h
  all_goals rfl

/-- Up to the READ an item's events do not depend on its answer (R194). -/
theorem getElem?_events_of_lt (it : Item) (a a' : Bool) (k : Nat) (h : k < 54) :
    (events it a)[k]? = (events it a')[k]? := by
  cases it with
  | start => rfl
  | stop => rfl
  | byte b =>
    calc (events (.byte b) a)[k]?
      _ = ((events (.byte b) a).take 54)[k]? := (List.getElem?_take_of_lt h).symm
      _ = ((events (.byte b) a').take 54)[k]? := by rw [take_events_byte b a a']
      _ = (events (.byte b) a')[k]? := List.getElem?_take_of_lt h

/-- The entries still to come, taken apart at the next event. -/
theorem itemTrace_drop (it : Item) (r : Bool) (k : Nat) (ev : WireEvent) (h : (events it !r)[k]? = some ev) :
    (itemTrace it r).drop k = ev.entry r :: (itemTrace it r).drop (k + 1) := by
  obtain ⟨hk, rfl⟩ := List.getElem?_eq_some_iff.1 h
  rw [List.drop_eq_getElem_cons (by simpa [itemTrace] using hk)]
  simp [itemTrace]

/-- After an item's last event none of its entries is still to come. -/
theorem itemTrace_drop_length (it : Item) (r : Bool) : (itemTrace it r).drop (events it !r).length = [] :=
  List.drop_of_length_le (by simp [itemTrace])

/-! ## The trace that is still to come -/

/-- The traces that are still to come in a state: the rest of the head item, with `ACKOK` past the READ telling its
answer, and then those of the other items (R32, R190). -/
inductive TraceLeft (s : State) : List TraceEntry → Prop
  | idle (hp : s.prog = []) : TraceLeft s []
  | item (it : Item) (items : List Item) (r : Bool) (es : List TraceEntry) (hp : s.prog = it :: items)
      (hr : 54 ≤ s.k → s.ackok = !r) (h : ProgTrace items es) :
      TraceLeft s ((itemTrace it r).drop s.k ++ es)

/-- At the start of an item the traces still to come are those of PROG. -/
theorem TraceLeft.progTrace {s : State} {es : List TraceEntry} (h : TraceLeft s es) (hk : s.k = 0) :
    ProgTrace s.prog es := by
  cases h with
  | idle hp => rw [hp]; exact .nil
  | item it items r es hp _ h => rw [hp, hk, List.drop_zero]; exact .cons it items r es h

section Event

variable {s : State} {it : Item} {items : List Item} {ev : WireEvent}

/-- Where an item's event does not end it, the level `r` that accounts for the rest of the item accounts for this event
too: at the READ itself `r` is the level read (R190, R196). -/
theorem getElem?_events_of_next (r : Bool) (hev : (events it s.ackok)[s.k]? = some ev)
    (hr : 54 ≤ s.k + 1 → (perform ev s).ackok = !r) :
    (54 ≤ s.k → s.ackok = !r) ∧ (events it !r)[s.k]? = some ev ∧ ev.entry r = ev.entry (readLevel s) := by
  by_cases hread : ev = .read
  · subst hread
    obtain ⟨-, hk⟩ := getElem?_events_eq_read it _ _ hev
    have hlevel : readLevel s = r := by simpa [perform] using hr (by omega)
    refine ⟨by omega, ?_, by rw [hlevel]⟩
    rw [getElem?_events_of_lt it _ s.ackok s.k (by omega), hev]
  · rw [perform_ackok_of_ne_read ev s hread] at hr
    refine ⟨fun h => hr (by omega), ?_, entry_of_ne_read ev _ _ hread⟩
    by_cases hk : s.k < 54
    · rw [getElem?_events_of_lt it _ s.ackok s.k hk, hev]
    · rw [← hr (by omega), hev]

/-- An event puts its entry before the traces that are to come after it (R190). -/
theorem TraceLeft.of_advance_perform {es : List TraceEntry} (hp : s.prog = it :: items)
    (hev : (events it s.ackok)[s.k]? = some ev) (h : TraceLeft (advance it items (perform ev s)) es) :
    TraceLeft s (ev.entry (readLevel s) :: es) := by
  by_cases hlast : s.k + 1 = (events it (perform ev s).ackok).length
  · rw [advance_of_last it items _ (by rw [perform_k]; exact hlast)] at h
    have hread := ne_read_of_last hev hlast
    obtain ⟨r, hr⟩ : ∃ r, s.ackok = !r := ⟨!s.ackok, (Bool.not_not _).symm⟩
    have hrest := TraceLeft.item it items r es hp (fun _ => hr) (h.progTrace rfl)
    rw [perform_ackok_of_ne_read ev s hread, hr] at hlast
    rw [hr] at hev
    rwa [itemTrace_drop it r s.k ev hev, hlast, itemTrace_drop_length,
      entry_of_ne_read ev r (readLevel s) hread] at hrest
  · rw [advance_of_not_last it items _ (by rw [perform_k]; exact hlast)] at h
    cases h with
    | idle hnil => cases hp.symm.trans ((perform_prog ev s).symm.trans hnil)
    | item it' items' r es hp' hr h =>
      obtain ⟨rfl, rfl⟩ := List.cons.inj (hp.symm.trans ((perform_prog ev s).symm.trans hp'))
      obtain ⟨hr, hev', hentry⟩ := getElem?_events_of_next r hev (by simpa using hr)
      have hrest := TraceLeft.item it items r es hp hr h
      rw [itemTrace_drop it r s.k ev hev', hentry] at hrest
      simpa using hrest

end Event

/-! ## The run to the end of PROG -/

/-- `s`, left alone, empties its PROG in `t`, with one step for each of the entries `es` and not before; `t` is a lawful
state whose NACK tells of a READ of 1 (R190, R196, R199). -/
structure EndsAfter (s : State) (es : List TraceEntry) (t : State) : Prop where
  run : Host.Core.run core es.length s = .next t
  empty : t.prog = []
  trace : t.trace = s.trace ++ es
  lawful : WireInv t
  nack : t.nack = (s.nack || decide (0 < missedAcks es))
  notBefore : ∀ (m : Nat) (u : State), m < es.length → Host.Core.run core m s = .next u → u.prog ≠ []

/-- A first entry counts as a missed ack when it is a READ of 1. -/
theorem missedAcks_cons_pos (e : TraceEntry) (es : List TraceEntry) :
    decide (0 < missedAcks (e :: es)) = (decide (e = .read true) || decide (0 < missedAcks es)) := by
  by_cases h : e = .read true <;> simp [missedAcks, h]

/-- With PROG empty there is nothing to send. -/
theorem EndsAfter.of_idle (s : State) (h : WireInv s) (hp : s.prog = []) : EndsAfter s [] s where
  run := rfl
  empty := hp
  trace := (List.append_nil _).symm
  lawful := h
  nack := (Bool.or_false _).symm
  notBefore := fun m _ hm => absurd hm (Nat.not_lt_zero m)

/-- One more step before a run to the end. -/
theorem EndsAfter.of_step {s u t : State} {e : TraceEntry} {es : List TraceEntry} (hp : s.prog ≠ [])
    (hstep : step s = .next u) (htrace : u.trace = s.trace ++ [e])
    (hnack : u.nack = (s.nack || decide (e = .read true))) (h : EndsAfter u es t) : EndsAfter s (e :: es) t where
  run := (run_succ_eq_next es.length s t).2 ⟨u, hstep, h.run⟩
  empty := h.empty
  trace := by rw [h.trace, htrace, List.append_assoc, List.singleton_append]
  lawful := h.lawful
  nack := by rw [h.nack, hnack, Bool.or_assoc, missedAcks_cons_pos]
  notBefore := by
    intro m v hm hrun
    cases m with
    | zero => cases hrun; exact hp
    | succ m =>
      obtain ⟨u', hstep', hrun'⟩ := (run_succ_eq_next m s v).1 hrun
      cases hstep.symm.trans hstep'
      exact h.notBefore m v (Nat.lt_of_succ_lt_succ hm) hrun'

/-- A lawful state with nothing scheduled empties its PROG, and leaves one of the traces that were to come: by induction
on the events left, each of which is one step (R190, R262). -/
theorem exists_endsAfter (s : State) (h : WireInv s) (hin : s.inputs = []) :
    ∃ es t, EndsAfter s es t ∧ TraceLeft s es := by
  induction hn : eventsLeft s using Nat.strong_induction_on generalizing s with
  | _ n ih =>
    cases hp : s.prog with
    | nil => exact ⟨[], s, .of_idle s h hp, .idle hp⟩
    | cons it items =>
      obtain ⟨ev, hev⟩ := exists_event_of_wireInv s it items h hp
      have hstep : step s = .next (advance it items (perform ev s)) := by
        rw [step_of_sequencerMoves s s (.inl ⟨hin, rfl⟩), seqStep_of_event s it items ev hp hev]
      have hfewer := eventsLeft_advance_perform it items ev s hp hev
      obtain ⟨es, t, hends, hleft⟩ := ih _ (by omega) (advance it items (perform ev s))
        (advance_perform_wireInv it items ev s h hp hev) (by simpa using hin) rfl
      exact ⟨_, t, .of_step (by simp [hp]) hstep (by rw [advance_trace, perform_trace_entry])
        (by rw [advance_nack, perform_nack]) hends, .of_advance_perform hp hev hleft⟩

/-! ## Counting the trace of a program (R198, R261) -/

/-- The counts of one item's trace: 4 entries of START, 8 of STOP, 57 of a BYTE and two more for a missed ack (R198). -/
theorem itemTrace_length (it : Item) (r : Bool) :
    (itemTrace it r).length
      = 4 * [it].count .start + 8 * [it].count .stop + 57 * byteCount [it] + 2 * missedAcks (itemTrace it r) := by
  cases it <;> cases r <;> rfl

/-- One READ a BYTE (R194). -/
theorem readCount_itemTrace (it : Item) (r : Bool) : readCount (itemTrace it r) = byteCount [it] := by
  cases it <;> cases r <;> rfl

/-- Two WAITs of START, four of STOP, 28 of a BYTE (R261). -/
theorem waitCount_itemTrace (it : Item) (r : Bool) :
    waitCount (itemTrace it r) = 2 * [it].count .start + 4 * [it].count .stop + 28 * byteCount [it] := by
  cases it <;> cases r <;> rfl

/-- Nine CLK rising edges of a BYTE, one of STOP and none of START, wherever CLK stands before; only STOP leaves it high
(R198). -/
theorem risingEdges_itemTrace (clk : Bool) (it : Item) (r : Bool) (es : List TraceEntry) :
    risingEdges clk (itemTrace it r ++ es)
      = 9 * byteCount [it] + [it].count .stop + risingEdges (decide (it = .stop)) es := by
  cases it with
  | start => simp [itemTrace, events, WireEvent.entry, risingEdges, byteCount]
  | stop => simp [itemTrace, events, WireEvent.entry, risingEdges, byteCount]
  | byte b =>
    have hdata : ∀ es, risingEdges clk ((dataPhase b).map (WireEvent.entry r) ++ es) = 8 + risingEdges true es := by
      intro es
      simp [dataPhase, bitSlot, WireEvent.entry, risingEdges]
      omega
    have hack : risingEdges true ((ackPhase !r).map (WireEvent.entry r) ++ es) = 1 + risingEdges false es := by
      cases r <;> simp [ackPhase, WireEvent.entry, risingEdges]
    rw [itemTrace, events, List.map_append, List.append_assoc, hdata, hack]
    simp [byteCount]
    omega

/-- The BYTEs of a program are its first item's and those of the rest. -/
theorem byteCount_cons (it : Item) (items : List Item) : byteCount (it :: items) = byteCount [it] + byteCount items :=
  List.countP_append (l₁ := [it])

/-- How often an item stands in a program: at its head and in the rest. -/
theorem count_item_cons (a it : Item) (items : List Item) : (it :: items).count a = [it].count a + items.count a :=
  List.count_append (l₁ := [it])

/-- The READs of two traces. -/
theorem readCount_append (es es' : List TraceEntry) : readCount (es ++ es') = readCount es + readCount es' :=
  List.countP_append

/-- The WAITs of two traces. -/
theorem waitCount_append (es es' : List TraceEntry) : waitCount (es ++ es') = waitCount es + waitCount es' :=
  List.countP_append

/-- The missed acks of two traces. -/
theorem missedAcks_append (es es' : List TraceEntry) : missedAcks (es ++ es') = missedAcks es + missedAcks es' :=
  List.countP_append

section Counts

variable {prog : List Item} {es : List TraceEntry}

/-- The events a program takes (R198). -/
theorem ProgTrace.length_eq (h : ProgTrace prog es) :
    es.length = 4 * prog.count .start + 8 * prog.count .stop + 57 * byteCount prog + 2 * missedAcks es := by
  induction h with
  | nil => rfl
  | cons it items r es _ ih =>
    rw [List.length_append, ih, itemTrace_length, missedAcks_append, byteCount_cons it items,
      count_item_cons .start it items, count_item_cons .stop it items]
    omega

/-- The READs of a program (R198). -/
theorem ProgTrace.readCount_eq (h : ProgTrace prog es) : readCount es = byteCount prog := by
  induction h with
  | nil => rfl
  | cons it items r es _ ih => rw [readCount_append, ih, readCount_itemTrace, byteCount_cons it items]

/-- The WAITs of a program (R261). -/
theorem ProgTrace.waitCount_eq (h : ProgTrace prog es) :
    waitCount es = 2 * prog.count .start + 4 * prog.count .stop + 28 * byteCount prog := by
  induction h with
  | nil => rfl
  | cons it items r es _ ih =>
    rw [waitCount_append, ih, waitCount_itemTrace, byteCount_cons it items, count_item_cons .start it items,
      count_item_cons .stop it items]
    omega

/-- The CLK rising edges of a program, wherever CLK stands before it (R198). -/
theorem ProgTrace.risingEdges_eq (h : ProgTrace prog es) (clk : Bool) :
    risingEdges clk es = 9 * byteCount prog + prog.count .stop := by
  induction h generalizing clk with
  | nil => rfl
  | cons it items r es _ ih =>
    rw [risingEdges_itemTrace, ih, byteCount_cons it items, count_item_cons .stop it items]
    omega

end Counts

/-! ## The accepted command -/

/-- An accepted command is acceptance on the idle state, which leaves a lawful state with nothing scheduled (R163). -/
theorem exists_endsAfter_of_accepted (s s1 : State) (c : Command) (h : WireInv s) (hin : s.inputs = [])
    (hp : s.prog = []) (hc : c.legal = true) (he : exec c.toInstr s = .next s1) :
    s1 = complete (accept c s) ∧ ∃ es t, EndsAfter s1 es t ∧ ProgTrace (wireProgram (latch c s)) es := by
  rw [exec_toInstr, displayCommand_of_legal c s hp hc] at he
  cases he
  obtain ⟨es, t, hends, hleft⟩ := exists_endsAfter (complete (accept c s)) (accept_wireInv c s h hp) hin
  exact ⟨rfl, es, t, hends, hleft.progTrace rfl⟩

/-- The mode byte, the address byte, the cells and the brightness byte (R163). -/
theorem byteCount_wireProgram (sn : Snap) : byteCount (wireProgram sn) = sn.cells.length + 3 := by
  simp [byteCount, wireProgram, List.countP_map, Function.comp_def]

/-- Three transactions, each with its START and its STOP (R163). -/
theorem count_wireProgram (sn : Snap) :
    (wireProgram sn).count .start = 3 ∧ (wireProgram sn).count .stop = 3 := by
  have hcells : ∀ it : Item, it.clkStart = true ∨ it = .stop → (sn.cells.map Item.byte).count it = 0 := by
    intro it hit
    refine List.count_eq_zero_of_not_mem fun hmem => ?_
    obtain ⟨b, -, rfl⟩ := List.mem_map.1 hmem
    simp [Item.clkStart] at hit
  simp [wireProgram, hcells .start (.inl rfl), hcells .stop (.inr rfl)]

/-- The number of cells each command latches (R166-R170). -/
theorem commandCells_length_eq (s : State) (c : Command) :
    (commandCells s c).length = match c with
      | .clear | .renderDigits | .renderNumber _ => 4
      | .display _ lenm1 => lenm1.toNat + 1
      | .writeFixed _ => 1 := by
  cases c with
  | clear | renderDigits | writeFixed => rfl
  | renderNumber lz => exact renderCells_length _ _ _
  | display pos lenm1 => simp [commandCells]

/-- Settles O51: the run of `exists_endsAfter`, with the counts of the trace of the command's wire program. -/
theorem acceptedCommandEndsAfterItsEvents : Obligations.AcceptedCommandEndsAfterItsEvents := by
  intro s s1 c h hin hp hc he
  obtain ⟨rfl, es, t, hends, htrace⟩ := exists_endsAfter_of_accepted s s1 c h hin hp hc he
  obtain ⟨hstarts, hstops⟩ := count_wireProgram (latch c s)
  obtain ⟨-, -, -, hclk, hdio⟩ := (wireInv_nil t hends.empty).1 hends.lawful
  have hprog : (complete (accept c s)).prog = wireProgram (latch c s) := rfl
  have hlength := htrace.length_eq
  have hwaits := htrace.waitCount_eq
  have hedges := htrace.risingEdges_eq true
  rw [hstarts, hstops] at hlength hwaits
  rw [hstops] at hedges
  rw [hprog]
  refine ⟨t, es, hends.run, hends.empty, hclk, hdio, hends.trace, by omega, ?_, htrace.readCount_eq, hedges, by omega,
    by simpa using hends.nack, hends.notBefore⟩
  rw [byteCount_wireProgram]
  show (commandCells s c).length + 3 = _
  rw [commandCells_length_eq]
  cases c <;> rfl

end Sys2Proof.Machine
end

section
/-! SUPPORT. What a receiver reads in the trace of a program: each transaction's bytes, whatever it answers (R165, R183,
R201). -/

namespace Sys2Proof.Machine

/-! ## The receiver along an item -/

/-- The receiver between transactions: idle lines, and those transactions done (R201). -/
def Rx.between (done : List (List Byte)) : Rx := ⟨true, .out1, false, [], [], done⟩

/-- The receiver inside a transaction after whole bytes: CLK low, and DIO at `dio` (R192, R194). -/
def Rx.within (dio : DioMode) (bytes : List Byte) (done : List (List Byte)) : Rx :=
  ⟨false, dio, true, [], bytes, done⟩

/-- With CLK low a change of DIO is no START and no STOP (R201). -/
theorem Rx.next_dio_of_clk_low (r : Rx) (l : Bool) (h : r.clk = false) :
    r.next (.dio l) = { r with dio := if l then .out1 else .out0 } := by
  cases l <;> simp [Rx.next, h]

/-- The six events of bit `i` add its level, before the ninth of a group (R193, R201). -/
theorem foldl_next_bitSlot (b : Byte) (i : Nat) (r : Bool) (rx : Rx) (hin : rx.inside = true)
    (hbits : rx.bits.length < 8) :
    ((bitSlot b i).map (WireEvent.entry r)).foldl Rx.next rx
      = { rx with
          clk := true, dio := if b.getLsbD i then .out1 else .out0, bits := rx.bits ++ [b.getLsbD i] } := by
  have hnot : rx.bits.length + 1 ≠ 9 := by omega
  cases h : b.getLsbD i <;>
    simp [bitSlot, WireEvent.entry, Rx.next, Rx.sampleLevel, hin, h, hnot]

/-- The eight levels of a byte on the wire read as the byte (R65, R193). -/
theorem byteOfBits_getLsbD : ∀ b : Byte, byteOfBits ((List.range 8).map b.getLsbD) = b := by decide

/-- The data phase of a byte adds its eight levels (R193, R201). -/
theorem foldl_next_dataPhase (b : Byte) (r : Bool) (dio : DioMode) (bytes : List Byte) (done : List (List Byte)) :
    ((dataPhase b).map (WireEvent.entry r)).foldl Rx.next (Rx.within dio bytes done)
      = ⟨true, if b.getLsbD 7 then .out1 else .out0, true, (List.range 8).map b.getLsbD, bytes, done⟩ := by
  simp [dataPhase, Rx.within, foldl_next_bitSlot, List.range_succ]

/-- The ack phase completes the byte of eight levels, whatever the receiver answers: the forced low of a missed ack falls
from a released line and is no START (R194, R201, log entry 15). -/
theorem foldl_next_ackPhase (r : Bool) (dio : DioMode) (bits : List Bool) (bytes : List Byte)
    (done : List (List Byte)) (hbits : bits.length = 8) :
    ((ackPhase !r).map (WireEvent.entry r)).foldl Rx.next ⟨true, dio, true, bits, bytes, done⟩
      = Rx.within .released (bytes ++ [byteOfBits bits]) done := by
  cases r <;> simp [ackPhase, WireEvent.entry, Rx.next, Rx.sampleLevel, Rx.within, hbits]

/-- START opens a transaction (R192, R201). -/
theorem foldl_next_start (r : Bool) (done : List (List Byte)) :
    (itemTrace .start r).foldl Rx.next (Rx.between done) = Rx.within .out0 [] done := rfl

/-- STOP closes the transaction, and the level at its CLK rise goes with it (R197, R201). -/
theorem foldl_next_stop (r : Bool) (dio : DioMode) (bytes : List Byte) (done : List (List Byte)) :
    (itemTrace .stop r).foldl Rx.next (Rx.within dio bytes done) = Rx.between (done ++ [bytes]) := rfl

/-- A BYTE adds its byte to the open transaction (R193, R194, R201). -/
theorem foldl_next_byte (b : Byte) (r : Bool) (dio : DioMode) (bytes : List Byte) (done : List (List Byte)) :
    (itemTrace (.byte b) r).foldl Rx.next (Rx.within dio bytes done) = Rx.within .released (bytes ++ [b]) done := by
  rw [itemTrace, events, List.map_append, List.foldl_append, foldl_next_dataPhase,
    foldl_next_ackPhase r _ _ _ _ (by simp), byteOfBits_getLsbD]

/-! ## The receiver along a program -/

/-- The items of one transaction (R163). -/
def transaction (bytes : List Byte) : List Item := .start :: (bytes.map Item.byte ++ [.stop])

/-- The wire program is three transactions: the mode byte; the address byte and the cells; the brightness byte (R163). -/
theorem wireProgram_eq_transactions (sn : Snap) :
    wireProgram sn = [[sn.mode], addrByte sn.pos :: sn.cells, [dispByte sn.level]].flatMap transaction := by
  simp [wireProgram, transaction]

/-- The bytes up to a STOP join the open transaction, which the STOP closes. -/
theorem ProgTrace.foldl_next_bytes (cells : List Byte) (rest : List Item) {es : List TraceEntry}
    (h : ProgTrace (cells.map Item.byte ++ .stop :: rest) es) (dio : DioMode) (bytes : List Byte)
    (done : List (List Byte)) :
    ∃ es', ProgTrace rest es'
      ∧ es.foldl Rx.next (Rx.within dio bytes done) = es'.foldl Rx.next (Rx.between (done ++ [bytes ++ cells])) := by
  induction cells generalizing es dio bytes with
  | nil =>
    cases h with
    | cons _ _ r es h => exact ⟨es, h, by rw [List.foldl_append, foldl_next_stop, List.append_nil]⟩
  | cons b cells ih =>
    cases h with
    | cons _ _ r es h =>
      obtain ⟨es', hrest, hfold⟩ := ih h .released (bytes ++ [b])
      exact ⟨es', hrest, by rw [List.foldl_append, foldl_next_byte, hfold, List.append_assoc, List.singleton_append]⟩

/-- The receiver of a program of transactions reads them, after those it has read. -/
theorem ProgTrace.done_foldl_next (txs : List (List Byte)) {es : List TraceEntry}
    (h : ProgTrace (txs.flatMap transaction) es) (done : List (List Byte)) :
    (es.foldl Rx.next (Rx.between done)).done = done ++ txs := by
  induction txs generalizing es done with
  | nil => cases h; exact (List.append_nil _).symm
  | cons bytes txs ih =>
    rw [List.flatMap_cons, transaction, List.cons_append, List.append_assoc, List.singleton_append] at h
    cases h with
    | cons _ _ r es h =>
      obtain ⟨es', hrest, hfold⟩ := h.foldl_next_bytes bytes _ .out0 [] done
      rw [List.foldl_append, foldl_next_start, hfold, ih hrest, List.nil_append, List.append_assoc,
        List.singleton_append]

/-- Settles O52: the run of `exists_endsAfter`, and the receiver's reading of the three transactions of its program. -/
theorem receiverReadsTheLatchedCommand : Obligations.ReceiverReadsTheLatchedCommand := by
  intro s s1 c h hin hp hc he
  obtain ⟨rfl, es, t, hends, htrace⟩ := exists_endsAfter_of_accepted s s1 c h hin hp hc he
  refine ⟨es.length, t, es, hends.run, hends.empty, hends.trace, ?_⟩
  rw [wireProgram_eq_transactions] at htrace
  rw [← addrByte_eq_ofNat, ← dispByte_eq_ofNat]
  exact htrace.done_foldl_next _ []

end Sys2Proof.Machine
end

section
/-! SUPPORT. The wire protocol event by event: what the sequencer's turn does at each place of an item, in any schedule
(R190-R197). -/

namespace Sys2Proof.Machine

/-! ## One event at the sequencer's turn -/

section OneEvent

variable {s₀ s : State} {it : Item} {rest : List Item} {ackok : Bool} {k : Nat}

/-- At the sequencer's turn an event before its item's last is performed and `K` goes on; a READ, which sets `ACKOK` and
with it the item's length, is never the last (R190, R194). -/
theorem step_of_event_before_last (hm : SequencerMoves s₀ s) (hp : s.prog = it :: rest) (ha : s.ackok = ackok)
    (ev : WireEvent) (hev : (events it ackok)[k]? = some ev) (hlt : k + 1 < (events it ackok).length) (hk : s.k = k) :
    step s₀ = .next { perform ev s with k := k + 1 } := by
  subst ha hk
  have hnot : s.k + 1 ≠ (events it (perform ev s).ackok).length := by
    intro hlast
    rw [perform_ackok_of_ne_read ev s (ne_read_of_last hev hlast)] at hlast
    omega
  rw [step_of_sequencerMoves s₀ s hm, seqStep_of_event s it rest ev hp hev,
    advance_of_not_last it rest _ (by rwa [perform_k]), perform_k]

/-- At the sequencer's turn the last event of an item is performed and takes the item from PROG (R190). -/
theorem step_of_last_event (hm : SequencerMoves s₀ s) (hp : s.prog = it :: rest) (ha : s.ackok = ackok)
    (ev : WireEvent) (hev : (events it ackok)[k]? = some ev) (hlast : k + 1 = (events it ackok).length) (hk : s.k = k) :
    step s₀ = .next { perform ev s with
      prog := rest, k := 0, ackok := false, firstByte := decide (it = .start) } := by
  subst ha hk
  have hread := ne_read_of_last hev hlast
  rw [step_of_sequencerMoves s₀ s hm, seqStep_of_event s it rest ev hp hev,
    advance_of_last it rest _ (by rwa [perform_k, perform_ackok_of_ne_read ev s hread])]

end OneEvent

/-! ## START and STOP (R192, R197) -/

/-- Settles O39: the event list of START, and its last event. -/
theorem startSendsItsFourEvents : Obligations.StartSendsItsFourEvents := by
  intro s₀ s rest hm hp
  refine ⟨?_, ?_, ?_, ?_⟩
  · exact step_of_event_before_last hm hp rfl (.dio false) rfl (by simp)
  · exact step_of_event_before_last hm hp rfl .wait rfl (by simp)
  · exact step_of_event_before_last hm hp rfl (.clk false) rfl (by simp)
  · exact step_of_last_event hm hp rfl .wait rfl (by simp)

/-- Settles O40: the event list of STOP, and its last event. -/
theorem stopSendsItsEightEvents : Obligations.StopSendsItsEightEvents := by
  intro s₀ s rest hm hp
  refine ⟨?_, ?_, ?_, ?_, ?_, ?_, ?_, ?_⟩
  · exact step_of_event_before_last hm hp rfl (.clk false) rfl (by simp)
  · exact step_of_event_before_last hm hp rfl .wait rfl (by simp)
  · exact step_of_event_before_last hm hp rfl (.dio false) rfl (by simp)
  · exact step_of_event_before_last hm hp rfl .wait rfl (by simp)
  · exact step_of_event_before_last hm hp rfl (.clk true) rfl (by simp)
  · exact step_of_event_before_last hm hp rfl .wait rfl (by simp)
  · exact step_of_event_before_last hm hp rfl (.dio true) rfl (by simp)
  · exact step_of_last_event hm hp rfl .wait rfl (by simp)

/-! ## BYTE (R193, R194, R196) -/

/-- Bit slot `j` of a BYTE is its six events from `6 j` on (R193). -/
theorem take_drop_events_byte (b : Byte) (ackok : Bool) (j : Nat) (hj : j < 8) :
    ((events (.byte b) ackok).drop (6 * j)).take 6 = bitSlot b j := by
  interval_cases j <;> rfl

/-- Event `i` of bit slot `j` (R193). -/
theorem getElem?_events_bitSlot (b : Byte) (ackok : Bool) (i j : Nat) (hi : i < 6) (hj : j < 8) :
    (events (.byte b) ackok)[6 * j + i]? = (bitSlot b j)[i]? := by
  rw [← take_drop_events_byte b ackok j hj, List.getElem?_take_of_lt hi, List.getElem?_drop]

section ByteAtHead

variable {s₀ s : State} {b : Byte} {rest : List Item}

/-- At the sequencer's turn an event of a BYTE up to its READ is performed; the ack phases agree so far (R194). -/
theorem step_of_byte_event_to_read (hm : SequencerMoves s₀ s) (hp : s.prog = .byte b :: rest) {k : Nat}
    (hle : k ≤ 53) (ev : WireEvent) (hev : (events (.byte b) true)[k]? = some ev) (hk : s.k = k) :
    step s₀ = .next { perform ev s with k := k + 1 } := by
  rw [getElem?_events_of_lt (.byte b) true s.ackok k (by omega)] at hev
  refine step_of_event_before_last hm hp rfl ev hev ?_ hk
  rw [events_byte_length]
  split <;> omega

/-- At the sequencer's turn event `i` of bit slot `j` is performed (R193). -/
theorem step_of_bitSlot_event (hm : SequencerMoves s₀ s) (hp : s.prog = .byte b :: rest) {i j : Nat} (hi : i < 6)
    (hj : j < 8) (ev : WireEvent) (hev : (bitSlot b j)[i]? = some ev) (hk : s.k = 6 * j + i) :
    step s₀ = .next { perform ev s with k := s.k + 1 } := by
  rw [← getElem?_events_bitSlot b true i j hi hj, ← hk] at hev
  exact step_of_byte_event_to_read hm hp (by omega) ev hev rfl

end ByteAtHead

/-- Settles O35: the six events of bit slot `j`. -/
theorem dataPhaseSendsBitsLsbFirst : Obligations.DataPhaseSendsBitsLsbFirst := by
  intro s₀ s b rest j hm hp hj
  refine ⟨?_, ?_, ?_, ?_, ?_, ?_⟩
  · exact step_of_bitSlot_event hm hp (i := 0) (by decide) hj (.clk false) rfl
  · exact step_of_bitSlot_event hm hp (i := 1) (by decide) hj .wait rfl
  · exact step_of_bitSlot_event hm hp (i := 2) (by decide) hj (.dio (b.getLsbD j)) rfl
  · exact step_of_bitSlot_event hm hp (i := 3) (by decide) hj .wait rfl
  · exact step_of_bitSlot_event hm hp (i := 4) (by decide) hj (.clk true) rfl
  · exact step_of_bitSlot_event hm hp (i := 5) (by decide) hj .wait rfl

/-- Settles O36: the first five events of the ack phase. -/
theorem ackSlotReleasesTheLine : Obligations.AckSlotReleasesTheLine := by
  intro s₀ s b rest hm hp
  refine ⟨?_, ?_, ?_, ?_, ?_⟩
  · exact step_of_byte_event_to_read hm hp (by decide) (.clk false) rfl
  · exact step_of_byte_event_to_read hm hp (by decide) .dioRel rfl
  · exact step_of_byte_event_to_read hm hp (by decide) .wait rfl
  · exact step_of_byte_event_to_read hm hp (by decide) (.clk true) rfl
  · exact step_of_byte_event_to_read hm hp (by decide) .wait rfl

/-- Settles O37: the READ, with its level from an ACK line or drawn freely. -/
theorem ackReadJudgesTheLevel : Obligations.AckReadJudgesTheLevel := by
  intro s₀ s b rest hm hp hk
  have hstep : step s₀ = .next { perform .read s with k := 54 } :=
    step_of_byte_event_to_read hm hp (by decide) .read rfl hk
  refine ⟨fun r rs hacks => ?_, fun hacks => ⟨Config.freeAck s.draws, ?_⟩⟩
  · rw [hstep, perform_read_ack s r rs hacks]
  · rw [hstep, perform_read_free s hacks]

/-- Settles O38: the events after the READ, of the two ack phases. -/
theorem ackPhaseEndsAsTheAckSays : Obligations.AckPhaseEndsAsTheAckSays := by
  intro s₀ s b rest hm hp
  refine ⟨fun ha => ⟨?_, ?_, ?_⟩, fun ha => ⟨?_, ?_, ?_, ?_, ?_⟩⟩
  · exact step_of_event_before_last hm hp ha .wait rfl (by simp)
  · exact step_of_event_before_last hm hp ha (.clk false) rfl (by simp)
  · exact step_of_last_event hm hp ha .wait rfl (by simp)
  · exact step_of_event_before_last hm hp ha (.dio false) rfl (by simp)
  · exact step_of_event_before_last hm hp ha .wait rfl (by simp)
  · exact step_of_event_before_last hm hp ha (.clk false) rfl (by simp)
  · exact step_of_event_before_last hm hp ha .wait rfl (by simp)
  · exact step_of_last_event hm hp ha .dioRel rfl (by simp)

end Sys2Proof.Machine
end

section
/-! SUPPORT. Who drives the lines and when: the sequencer always steps and comes to the end of PROG, no other agent but
reset drives a line, and DIO moves with CLK high at three places alone (R190, R200, R202, R262). -/

namespace Sys2Proof.Machine

/-! ## The sequencer's turn (R190, R262) -/

/-- Settles O43: a lawful place has an event, whose step is framed by `advance_perform_frame`. -/
theorem sequencerAlwaysSteps : Obligations.SequencerAlwaysSteps := by
  intro s₀ s hm hw hp
  obtain ⟨it, items, hp⟩ := List.exists_cons_of_ne_nil hp
  obtain ⟨ev, hev⟩ := exists_event_of_wireInv s it items hw hp
  obtain ⟨e, he⟩ := perform_trace ev s
  refine ⟨advance it items (perform ev s), e,
    (step_of_sequencerMoves s₀ s hm).trans (seqStep_of_event s it items ev hp hev), ?_⟩
  rw [← he]
  simpa using advance_perform_frame it items ev s

/-- A program's trace has at most 59 entries an item (R192, R194, R197). -/
theorem ProgTrace.length_le {items : List Item} {es : List TraceEntry} (h : ProgTrace items es) :
    es.length ≤ 59 * items.length := by
  induction h with
  | nil => exact le_rfl
  | cons it items r es _ ih =>
    have hitem := events_length_le it !r
    simp only [itemTrace, List.length_append, List.length_map, List.length_cons]
    omega

/-- The traces still to come have at most 59 entries for each item of PROG (R190). -/
theorem TraceLeft.length_le {s : State} {es : List TraceEntry} (h : TraceLeft s es) :
    es.length ≤ 59 * s.prog.length := by
  cases h with
  | idle hp => exact Nat.zero_le _
  | item it items r es hp _ h =>
    have hitem := events_length_le it !r
    have hrest := h.length_le
    simp only [hp, itemTrace, List.length_append, List.length_drop, List.length_map, List.length_cons]
    omega

/-- Settles O50: the run of `exists_endsAfter` has a step for each entry of a trace still to come. -/
theorem sequencerEmptiesItsProgram : Obligations.SequencerEmptiesItsProgram := by
  intro s hw hin
  obtain ⟨es, t, hends, hleft⟩ := exists_endsAfter s hw hin
  exact ⟨es.length, t, hleft.length_le, hends.run, hends.empty⟩

/-! ## No other agent drives the lines (R202) -/

/-- The two lines and TRACE are the same in both states. -/
structure SameLines (s t : State) : Prop where
  clk : t.clkLvl = s.clkLvl
  dio : t.dioMode = s.dioMode
  trace : t.trace = s.trace

/-- A display command drives no line: its program only waits for the sequencer (R163, R202). -/
theorem displayCommand_sameLines (c : Option Command) (s : State) : SameLines s (displayCommand c s) :=
  ⟨displayCommand_clkLvl c s, displayCommand_dioMode c s, displayCommand_trace c s⟩

/-- A step leaves the lines and TRACE alone, unless it is reset or the sequencer's turn with PROG not empty (R202). -/
theorem sameLines_or_driven_of_step (s t : State) (h : step s = .next t) :
    SameLines s t ∨ resetNext s ∨ (s.prog ≠ [] ∧ ∃ s', SequencerMoves s s') := by
  cases step_effect s t h with
  | spared => exact .inl ⟨rfl, rfl, rfl⟩
  | sampled => exact .inl ⟨rfl, rfl, rfl⟩
  | commanded w rest =>
    obtain ⟨hclk, hdio, htrace⟩ := displayCommand_sameLines (decodeCmd w) { s with inputs := rest }
    exact .inl ⟨hclk, hdio, htrace⟩
  | sequenced inputs hm it items ev hp => exact .inr (.inr ⟨by simp [hp], _, hm⟩)
  | wasReset during rest acks resp hin => exact .inr (.inl ⟨during, rest, hin⟩)

/-- No operation but a command byte drives a line (R202). -/
theorem exec_sameLines (i : Instr) (s t : State) (hi : onWire i = false) (h : exec i s = .next t) : SameLines s t := by
  cases exec_effect i s t h with
  | commanded c => exact displayCommand_sameLines c s
  | sent b t hw => cases hi.symm.trans hw
  | answered | ignored | storedLevel | storedData | storedValue | storedSegcode | sampled => exact ⟨rfl, rfl, rfl⟩

/-- Settles O44: by what a step and an operation can do. -/
theorem onlyTheSequencerDrivesTheLines : Obligations.OnlyTheSequencerDrivesTheLines := by
  refine ⟨fun s t hstep hchange => ?_, fun i s t hi hexec => ?_⟩
  · obtain ⟨hclk, hdio, htrace⟩ | hdriven := sameLines_or_driven_of_step s t hstep
    · simp [hclk, hdio, htrace] at hchange
    · exact hdriven
  · obtain ⟨hclk, hdio, htrace⟩ := exec_sameLines i s t hi hexec
    exact ⟨hclk, hdio, htrace⟩

/-! ## DIO while CLK is high (R200) -/

/-- An event sets the data pin's mode (R195). -/
def WireEvent.setsDio : WireEvent → Bool
  | .dio _ | .dioRel => true
  | .clk _ | .wait | .read => false

/-- An event that does not set the pin leaves it as it was. -/
theorem perform_dioMode_of_not_setsDio (ev : WireEvent) (s : State) (h : ev.setsDio = false) :
    (perform ev s).dioMode = s.dioMode := by
  rw [perform_dioMode]
  cases ev
  case clk | wait | read => rfl
  all_goals cases h

/-- The indices, from `i` on, of the events that set DIO while CLK is high, which begins at `clk`. -/
def dioWhileClkHigh (clk : Bool) (i : Nat) : List WireEvent → List Nat
  | [] => []
  | ev :: es => (if clk && ev.setsDio then [i] else []) ++ dioWhileClkHigh (clkAfter clk [ev]) (i + 1) es

/-- `dioWhileClkHigh` lists every event that sets DIO after events that leave CLK high. -/
theorem mem_dioWhileClkHigh_of_getElem? (es : List WireEvent) (clk : Bool) (i k : Nat) (ev : WireEvent)
    (hev : es[k]? = some ev) (hdio : ev.setsDio = true) (hclk : clkAfter clk (es.take k) = true) :
    i + k ∈ dioWhileClkHigh clk i es := by
  induction es generalizing clk i k with
  | nil => cases hev
  | cons e es ih =>
    rw [dioWhileClkHigh, List.mem_append]
    cases k with
    | zero =>
      cases hev
      have hhigh : clk = true := hclk
      exact .inl (by simp [hhigh, hdio])
    | succ k =>
      rw [List.take_succ_cons, ← List.singleton_append, clkAfter_append] at hclk
      have hmem := ih (clkAfter clk [e]) (i + 1) k hev hclk
      rw [Nat.add_right_comm, Nat.add_assoc] at hmem
      exact .inr hmem

/-- START sets DIO with CLK high at its first event alone (R192). -/
theorem dioWhileClkHigh_start (ackok : Bool) :
    dioWhileClkHigh Item.start.clkStart 0 (events .start ackok) = [0] := rfl

/-- STOP sets DIO with CLK high at its event 6 alone (R197). -/
theorem dioWhileClkHigh_stop (ackok : Bool) :
    dioWhileClkHigh Item.stop.clkStart 0 (events .stop ackok) = [6] := rfl

/-- A BYTE sets DIO with CLK high at no data bit, and at its event 54 without the ack (R193, R194, R200). -/
theorem dioWhileClkHigh_byte (b : Byte) (ackok : Bool) :
    dioWhileClkHigh (Item.byte b).clkStart 0 (events (.byte b) ackok) = if ackok then [] else [54] := by
  cases ackok <;> rfl

/-- An event that changes DIO while CLK is high is one of those that the item lists (R200). -/
theorem AtEvent.mem_dioWhileClkHigh {it : Item} {s : State} {ev : WireEvent} (h : AtEvent it s)
    (hev : (events it s.ackok)[s.k]? = some ev) (hclk : s.clkLvl = true) (hdio : (perform ev s).dioMode ≠ s.dioMode) :
    s.k ∈ dioWhileClkHigh it.clkStart 0 (events it s.ackok) := by
  obtain ⟨hlow, -⟩ := h.lines
  have hsets : ev.setsDio = true := by
    by_contra hnot
    exact hdio (perform_dioMode_of_not_setsDio ev s (by simpa using hnot))
  have hmem := mem_dioWhileClkHigh_of_getElem? _ it.clkStart 0 s.k ev hev hsets (hlow.symm.trans hclk)
  rwa [Nat.zero_add] at hmem

/-- A change of DIO at an event of a lawful state with CLK high: START's fall, STOP's rise, or the forced low of a
missed ack (R200). -/
theorem AtEvent.dio_change_cases {it : Item} {s : State} {ev : WireEvent} (h : AtEvent it s)
    (hev : (events it s.ackok)[s.k]? = some ev) (hclk : s.clkLvl = true) (hdio : (perform ev s).dioMode ≠ s.dioMode) :
    (it = .start ∧ s.k = 0 ∧ s.dioMode = .out1 ∧ (perform ev s).dioMode = .out0)
      ∨ (it = .stop ∧ s.k = 6 ∧ s.dioMode = .out0 ∧ (perform ev s).dioMode = .out1)
      ∨ (∃ b, it = .byte b ∧ s.k = 54 ∧ s.ackok = false ∧ s.dioMode = .released
          ∧ (perform ev s).dioMode = .out0) := by
  have hmem := h.mem_dioWhileClkHigh hev hclk hdio
  obtain ⟨-, m, hm, hmode⟩ := h.lines
  cases it with
  | start =>
    have hk : s.k = 0 := by simpa [dioWhileClkHigh_start] using hmem
    rw [hk] at hev hmode
    cases hev
    obtain rfl : m = .out1 := by simpa [Item.dioStarts] using hm
    exact .inl ⟨rfl, hk, hmode, rfl⟩
  | stop =>
    have hk : s.k = 6 := by simpa [dioWhileClkHigh_stop] using hmem
    rw [hk] at hev hmode
    cases hev
    exact .inr (.inl ⟨rfl, hk, hmode, rfl⟩)
  | byte b =>
    obtain ⟨ha, hk⟩ : s.ackok = false ∧ s.k = 54 := by
      rw [dioWhileClkHigh_byte] at hmem
      split at hmem
      case isTrue => cases hmem
      case isFalse ha => exact ⟨by simpa using ha, List.mem_singleton.1 hmem⟩
    rw [hk, ha] at hev hmode
    cases hev
    exact .inr (.inr ⟨b, rfl, hk, ha, hmode, rfl⟩)

/-- Settles O45: only a sequencer event and reset change DIO, and the events that do with CLK high are three. -/
theorem dataLineIsStableWhileClockIsHigh : Obligations.DataLineIsStableWhileClockIsHigh := by
  rintro s t ⟨-, -, hplace⟩ hstep hclk hdio
  cases step_effect s t hstep with
  | spared => exact absurd rfl hdio
  | sampled => exact absurd rfl hdio
  | commanded w rest => exact absurd (displayCommand_dioMode _ _) hdio
  | wasReset during rest acks resp hin => exact .inl ⟨during, rest, hin⟩
  | sequenced inputs hm it items ev hp hev =>
    rw [advance_dioMode] at hdio ⊢
    have hhead : s.prog.head? = some it := by rw [hp, List.head?_cons]
    have hat := (seqPlace_cons { s with inputs := inputs } it items hp).1 hplace
    obtain ⟨rfl, hk, hbefore, hafter⟩ | ⟨rfl, hk, hbefore, hafter⟩ | ⟨b, rfl, hk, ha, hbefore, hafter⟩ :=
      hat.dio_change_cases hev hclk hdio
    · exact .inr (.inl ⟨hhead, hk, hbefore, hafter⟩)
    · exact .inr (.inr (.inl ⟨hhead, hk, hbefore, hafter⟩))
    · exact .inr (.inr (.inr ⟨b, hhead, hk, ha, hbefore, hafter⟩))

end Sys2Proof.Machine
end

section
/-! SUPPORT. A sample value of more than `SAMPLE_W` bits: the refusal at the port, among the events of a reset, and by the
operation (R83, R225). -/

namespace Sys2Proof.Machine

/-- A value of more than `SAMPLE_W` bits names no operation (R83). -/
theorem decodeSmp_of_wide (p : Params) (d : Nat) (h : 2 ^ p.sampleW ≤ d) :
    decodeSmp p d = .rejected (.sampleTooWide d) :=
  if_neg (Nat.not_lt.2 h)

/-- A wide sample at the head of the schedule is refused, where `step_of_sample` runs one that fits. -/
theorem step_of_wideSample (s : State) (d : Nat) (rest : List Input)
    (hin : s.inputs = .event (.sample d) :: rest) (h : 2 ^ s.params.sampleW ≤ d) :
    step s = .refused .sampleTooWide := by
  simp only [step, fetch, hin, decode, decodeSmp_of_wide s.params d h, onReject]

/-- A wide sample is refused among the events of a reset, where one that fits is lost (R241). -/
theorem underReset_wideSample (d : Nat) (es : List Event) (s : State) (h : 2 ^ s.params.sampleW ≤ d) :
    underReset (.sample d :: es) s = .refused .sampleTooWide := by
  simp only [underReset, decodeSmp_of_wide s.params d h]

/-- SAMPLE of a wide value is refused, where `sampleEvent_next` inserts one that fits. -/
theorem sampleEvent_of_wide (d : Sample) (s : State) (h : 2 ^ s.params.sampleW ≤ d.toNat) :
    sampleEvent d s = .refused .sampleTooWide :=
  if_neg (Nat.not_lt.2 h)

/-- Settles O10: the port's decoder rejects the value, the events before it leave the reset going and the parameters as
they are, and the operation makes the same test. -/
theorem wideSampleIsRefused : Obligations.WideSampleIsRefused := by
  refine ⟨fun s rest d h => ⟨?port, fun before after hb => ?reset⟩, fun s d h => ?operation⟩
  case port => exact step_of_wideSample _ d rest rfl h
  case reset =>
    obtain ⟨acks, resp, hu⟩ := underReset_append before (.sample d :: after) (resetBlock { s with inputs := rest }) hb
    exact hu.trans (underReset_wideSample d after _ h)
  case operation => exact sampleEvent_of_wide d s h

end Sys2Proof.Machine
end

section
/-! SUPPORT. While reset is asserted: what the port answers to each kind of access, and that only its answer and the
receiver's queued answers change (R241). -/

namespace Sys2Proof.Machine

/-- Reset is the reset of the block, then the events that arrive while it is asserted (R240, R241). -/
theorem step_reset (s : State) (during : List Event) (rest : List Input) :
    step { s with inputs := .reset during :: rest } = underReset during (resetBlock { s with inputs := rest }) := rfl

/-- The access check in terms of the descriptor's number (R61, R68, R81). -/
theorem rejected_eq_none_iff_desc (a : Access) :
    a.rejected = none ↔ a.desc.toNat % 256 < 32 ∧ a.n = 4 ∧ a.desc.toNat % 4 = 0 := by
  have halign : a.off.toNat % 4 = a.desc.toNat % 4 := by rw [off_toNat]; omega
  rw [Access.rejected_eq_none, halign, off_toNat]
  rfl

/-! ## One host access -/

section OneAccess

variable (a : Access) (es : List Event) (s : State)

/-- An access of another size or a misaligned one is answered with the error response (R222, R241). -/
theorem underReset_busError (hw : a.desc.toNat % 256 < 32) (hbad : a.n ≠ 4 ∨ a.desc.toNat % 4 ≠ 0) :
    underReset (.host a :: es) s = underReset es (raiseBusError a.off a.n a.dir s) := by
  have hrej : a.rejected ≠ none := by
    rw [Ne, rejected_eq_none_iff_desc]
    rintro ⟨-, hn, ha⟩
    exact hbad.elim (· hn) (· ha)
  obtain ⟨r, hr⟩ := Option.ne_none_iff_exists'.1 hrej
  simp only [underReset, decodeBus_of_rejected a r hr, onReject_of_rejected a r hw hr]

/-- A write is completed and stores nothing (R241). -/
theorem underReset_write (hr : a.rejected = none) (hd : a.dir = .write) :
    underReset (.host a :: es) s = underReset es (complete s) := by
  obtain ⟨i, hi⟩ := exists_decodeBus_eq_instr a hr
  simp only [underReset, hi, hd]

/-- A read is answered with what its operation reads (R241). -/
theorem underReset_read (i : Instr) (w : Word) (hi : decodeBus a = .instr i) (hd : a.dir = .read)
    (he : exec i s = .next (respond w s)) : underReset (.host a :: es) s = underReset es (respond w s) := by
  simp only [underReset, hi, hd, he]

/-- Any access of the window sets the port's answer alone (R241). -/
theorem exists_underReset_host (hw : a.desc.toNat % 256 < 32) :
    ∃ resp, underReset (.host a :: es) s = underReset es { s with resp := resp } := by
  by_cases hr : a.rejected = none
  · cases hd : a.dir with
    | write => exact ⟨_, underReset_write a es s hr hd⟩
    | read =>
      obtain ⟨i, hi⟩ := exists_decodeBus_eq_instr a hr
      obtain ⟨w, he⟩ := decodeBus_read a i hd hi s
      exact ⟨_, underReset_read a es s i w hi hd he⟩
  · have hbad : a.n ≠ 4 ∨ a.desc.toNat % 4 ≠ 0 := by
      rw [rejected_eq_none_iff_desc] at hr
      omega
    exact ⟨_, underReset_busError a es s hw hbad⟩

variable {a es s}

/-- Where the reset step answers a next state, the host kept to the window (R68). -/
theorem window_of_underReset_next {t : State} (h : underReset (.host a :: es) s = .next t) :
    a.desc.toNat % 256 < 32 := by
  by_contra hout
  rw [underReset_outside a es s (Nat.not_lt.1 hout)] at h
  cases h

end OneAccess

/-! ## The events one after another -/

/-- An event that does not stop the reset step queues its ACK answer, and only a host access changes the port's
(R241). -/
theorem underReset_cons_next (e : Event) (es : List Event) (s t : State) (h : underReset (e :: es) s = .next t) :
    ∃ resp, underReset es { s with acks := s.acks ++ ackAnswers [e], resp := resp } = .next t
      ∧ ((∀ a, e ≠ .host a) → resp = s.resp) := by
  cases e with
  | ack r => exact ⟨s.resp, h, fun _ => rfl⟩
  | seq | seqAll => exact ⟨s.resp, (List.append_nil s.acks).symm ▸ h, fun _ => rfl⟩
  | sample d =>
    by_cases hd : d < 2 ^ s.params.sampleW
    · have hfit := (decodeSmp_eq_instr s.params d _).2 ⟨hd, rfl⟩
      simp only [underReset, hfit] at h
      exact ⟨s.resp, (List.append_nil s.acks).symm ▸ h, fun _ => rfl⟩
    · rw [underReset_wideSample d es s (Nat.not_lt.1 hd)] at h
      cases h
  | host a =>
    obtain ⟨resp, hresp⟩ := exists_underReset_host a es s (window_of_underReset_next h)
    exact ⟨resp, (List.append_nil s.acks).symm ▸ hresp.symm.trans h, fun hno => absurd rfl (hno a)⟩

/-- The first event's ACK answer comes first. -/
theorem ackAnswers_cons (e : Event) (es : List Event) : ackAnswers (e :: es) = ackAnswers [e] ++ ackAnswers es :=
  List.filterMap_append (l := [e])

/-- Events that do not stop the reset step queue their ACK answers in order, and without a host access among them the
port's answer stays (R241). -/
theorem underReset_append_next (before es : List Event) (s t : State) (h : underReset (before ++ es) s = .next t) :
    ∃ resp, underReset es { s with acks := s.acks ++ ackAnswers before, resp := resp } = .next t
      ∧ ((∀ a, Event.host a ∉ before) → resp = s.resp) := by
  induction before generalizing s with
  | nil => exact ⟨s.resp, (List.append_nil s.acks).symm ▸ h, fun _ => rfl⟩
  | cons e before ih =>
    obtain ⟨resp, hfirst, hresp⟩ := underReset_cons_next e (before ++ es) s t h
    obtain ⟨resp', hrest, hresp'⟩ := ih _ hfirst
    refine ⟨resp', ?_, fun hno => ?_⟩
    · rwa [ackAnswers_cons, ← List.append_assoc]
    · exact (hresp' fun a ha => hno a (List.mem_cons_of_mem e ha)).trans
        (hresp fun a he => hno a (he ▸ List.mem_cons_self))

/-- The state after all the events: only the queued ACK answers and the port's answer differ (R241). -/
theorem eq_of_underReset_next (es : List Event) (s t : State) (h : underReset es s = .next t) :
    t = { s with acks := s.acks ++ ackAnswers es, resp := t.resp } := by
  obtain ⟨resp, hend, -⟩ := underReset_append_next es [] s t ((List.append_nil es).symm ▸ h)
  cases hend
  rfl

/-- Without a host access the port's answer stays. -/
theorem underReset_resp (es : List Event) (s t : State) (hno : ∀ a, Event.host a ∉ es)
    (h : underReset es s = .next t) : t.resp = s.resp := by
  obtain ⟨resp, hend, hresp⟩ := underReset_append_next es [] s t ((List.append_nil es).symm ▸ h)
  cases hend
  exact hresp hno

/-! ## The registers' reset values at the port -/

/-- A descriptor with W = 0 is a read (R81). -/
theorem dir_readDescriptor (off : Byte) (n : Nat) (data : Word) : Access.dir ⟨0#1 ++ off, n, data⟩ = .read := by
  have hlow : (0#1 ++ off).toNat = off.toNat := by
    rw [toNat_append_eq, BitVec.toNat_ofNat, Nat.zero_mod, Nat.zero_mul, Nat.zero_add]
  exact (dir_eq _).trans (if_neg (Nat.not_le.2 (hlow ▸ off.isLt)))

/-- A listed offset is a register's, and its read on the reset block answers the listed value (R35, R62, R241). -/
theorem exists_resetRead (s : State) (acks : List Bool) (resp : Response) (off : Byte) (w data : Word)
    (h : (off, w) ∈
      [ (0x00#8, 0x00000000#32), (0x04#8, 0x00000000#32), (0x08#8, s.params.brightRst.setWidth 32),
        (0x0C#8, 0x00000000#32), (0x10#8, 0x00000000#32), (0x14#8, 0x00000000#32),
        (0x18#8, s.params.digitSeg[0].setWidth 32), (0x1C#8, 0x00000000#32) ]) :
    ∃ i, decodeBus ⟨0#1 ++ off, 4, data⟩ = .instr i
      ∧ exec i { resetBlock s with acks := acks, resp := resp }
        = .next (respond w { resetBlock s with acks := acks, resp := resp }) := by
  have hstatus : State.statusWord { resetBlock s with acks := acks, resp := resp } = 0#32 :=
    statusWord_resetWith s.params
  simp only [List.mem_cons, List.not_mem_nil, or_false, Prod.mk.injEq] at h
  obtain ⟨rfl, rfl⟩ | ⟨rfl, rfl⟩ | ⟨rfl, rfl⟩ | ⟨rfl, rfl⟩ | ⟨rfl, rfl⟩ | ⟨rfl, rfl⟩ | ⟨rfl, rfl⟩ | ⟨rfl, rfl⟩ := h
  case inr.inl =>
    exact ⟨.rdStatus, decodeBus_of_register _ _ _ _ (by decide) (by decide) rfl, hstatus ▸ rfl⟩
  all_goals exact ⟨_, decodeBus_of_register _ _ _ _ (by decide) (by decide) rfl, rfl⟩

/-- Settles O56: the state by `eq_of_underReset_next`, progress by `exists_step_reset`, and the port's answer by what
the last access does, after which nothing changes it. -/
theorem resetHoldsTheBlock : Obligations.ResetHoldsTheBlock := by
  refine ⟨fun s t during rest h => ?state, fun s during rest hd => ?progress,
    fun s t before after a rest hno h => ?answer⟩
  case state => exact eq_of_underReset_next during (resetBlock { s with inputs := rest }) t h
  case progress =>
    obtain ⟨t, hstep, -⟩ := exists_step_reset { s with inputs := .reset during :: rest } during rest rfl hd
    exact ⟨t, hstep⟩
  case answer =>
    rw [step_reset] at h
    obtain ⟨resp, hlast, -⟩ := underReset_append_next before (.host a :: after) _ t h
    have hw := window_of_underReset_next hlast
    refine ⟨fun hbad => ?busError, fun hn ha hwrite => ?done, fun off w hmem hn hdesc => ?data⟩
    case busError =>
      rw [underReset_busError a after _ hw hbad] at hlast
      rw [underReset_resp after _ t hno hlast, raiseBusError_resp, off_eq_ofNat, dir_eq]
    case done =>
      rw [underReset_write a after _ ((rejected_eq_none_iff_desc a).2 ⟨hw, hn, ha⟩)
        ((dir_eq a).trans (if_pos hwrite))] at hlast
      rw [underReset_resp after _ t hno hlast, complete_resp]
    case data =>
      obtain ⟨desc, n, data⟩ := a
      obtain rfl : n = 4 := hn
      obtain rfl : desc = 0#1 ++ off := hdesc
      obtain ⟨i, hi, he⟩ := exists_resetRead { s with inputs := rest } _ resp off w data hmem
      rw [underReset_read _ after _ i w hi (dir_readDescriptor off 4 data) he] at hlast
      rw [underReset_resp after _ t hno hlast, respond_resp]

end Sys2Proof.Machine
end
